-- ==== Sys2Proof/Word.lean ====
section
/-! DEFINITION. The word types of the RVF frame-decoder core: bytes, nibbles, 4x4 blocks, small palettes
(spec/00_scope.md R6, R9, R10; spec/20_memory.md R51). -/

namespace Sys2Proof

/-- A byte, 8 bits, an unsigned value 0..255 (R51). A decoded pixel byte is a global palette index. -/
abbrev Byte := BitVec 8

/-- Half a byte: a block-type tag or a length field (R70). -/
abbrev Nibble := BitVec 4

/-- A 4x4 pixel patch of 16 bytes, row-major: byte `k` is pixel `(k mod 4, k div 4)` (R14, R55). -/
abbrev Block := Vector Byte 16

/-- A small palette of `c` colours, one byte each (R14); the core has `c` = 2, 4 and 8 (R6). -/
abbrev Palette (c : Nat) := Vector Byte c

end Sys2Proof
end

