-- ==== Sys2Proof/Syntax.lean ====
section
/-! DEFINITION. The instruction set: the 16 block commands of spec/30_encoding.md R71, one constructor for each row of
spec/opcode_table.json. `lf` is the length field `H[3:0]` (R70), `ext` the length-extension byte of a long command (R74),
and the rest is the payload of R75 and R77: a colour byte, a literal palette, a slot index, and one group of data bytes
for each covered block. -/

namespace Sys2Proof

/-- One command of the stream, header, length extension and payload together (R14 "Command", R76). -/
inductive Instr where
  /-- SKIP, tag 0x0 (R145) -/
  | skip (lf : Nibble)
  /-- SKIP-long, tag 0x1 (R146) -/
  | skipLong (lf : Nibble) (ext : Byte)
  /-- REPEAT, tag 0x2 (R147) -/
  | repeatPrev (lf : Nibble)
  /-- REPEAT-long, tag 0x3 (R148) -/
  | repeatPrevLong (lf : Nibble) (ext : Byte)
  /-- SOLID, tag 0x4, colour `c` (R149) -/
  | solid (lf : Nibble) (c : Byte)
  /-- SOLID-long, tag 0x5 (R150) -/
  | solidLong (lf : Nibble) (ext : Byte) (c : Byte)
  /-- SOLID-SEP, tag 0x6 (R151) -/
  | solidSep (lf : Nibble) (c : Byte)
  /-- SOLID-SEP-long, tag 0x7 (R152) -/
  | solidSepLong (lf : Nibble) (ext : Byte) (c : Byte)
  /-- PAL2, tag 0x8, literal 2-colour palette, 2 packed bytes a block (R155) -/
  | pal2 (lf : Nibble) (pal : Palette 2) (data : List (Vector Byte 2))
  /-- PAL2-cache, tag 0x9, the palette in slot `slot` of CACHE_2 (R156) -/
  | pal2Cache (lf : Nibble) (slot : Byte) (data : List (Vector Byte 2))
  /-- PAL4, tag 0xA, literal 4-colour palette, 4 packed bytes a block (R157) -/
  | pal4 (lf : Nibble) (pal : Palette 4) (data : List (Vector Byte 4))
  /-- PAL4-cache, tag 0xB, the palette in slot `slot` of CACHE_4 (R158) -/
  | pal4Cache (lf : Nibble) (slot : Byte) (data : List (Vector Byte 4))
  /-- PAL8, tag 0xC, literal 8-colour palette, 6 packed bytes a block (R159) -/
  | pal8 (lf : Nibble) (pal : Palette 8) (data : List (Vector Byte 6))
  /-- PAL8-cache, tag 0xD, the palette in slot `slot` of CACHE_8 (R160) -/
  | pal8Cache (lf : Nibble) (slot : Byte) (data : List (Vector Byte 6))
  /-- RAW, tag 0xE, 16 bytes a block (R161) -/
  | raw (lf : Nibble) (data : List Block)
  /-- RAW-long, tag 0xF, 16 bytes a block (R162) -/
  | rawLong (lf : Nibble) (ext : Byte) (data : List Block)
  deriving DecidableEq, Repr

end Sys2Proof
end

