-- ==== Sys2Proof/Machine/Operands.lean ====
section
/-! DEFINITION. The operand forms of the commands: tags and lengths (spec/30_encoding.md R71 to R76), the three bit
unpackers and the palette mapping (spec/41_unpackers.md R120 to R126). -/

namespace Sys2Proof

/-- The tag of a command, `H[7:4]` (R71). -/
def Instr.tag : Instr → Nibble
  | .skip .. => 0x0#4
  | .skipLong .. => 0x1#4
  | .repeatPrev .. => 0x2#4
  | .repeatPrevLong .. => 0x3#4
  | .solid .. => 0x4#4
  | .solidLong .. => 0x5#4
  | .solidSep .. => 0x6#4
  | .solidSepLong .. => 0x7#4
  | .pal2 .. => 0x8#4
  | .pal2Cache .. => 0x9#4
  | .pal4 .. => 0xA#4
  | .pal4Cache .. => 0xB#4
  | .pal8 .. => 0xC#4
  | .pal8Cache .. => 0xD#4
  | .raw .. => 0xE#4
  | .rawLong .. => 0xF#4

/-- `IsLong(TAG)`: exactly the tags 0x1, 0x3, 0x5, 0x7 and 0xF (R72). -/
def isLong (tag : Nibble) : Bool :=
  tag == 0x1#4 || tag == 0x3#4 || tag == 0x5#4 || tag == 0x7#4 || tag == 0xF#4

/-- Short count: `zext(LF) + 1`, in 1..16 (R73). -/
def shortCount (lf : Nibble) : Nat := lf.toNat + 1

/-- Long count: `((zext(LF) << 8) | EXT) + 1`, in 1..4096 (R74); big-endian across the two bytes (R53). -/
def longCount (lf : Nibble) (ext : Byte) : Nat :=
  ((lf.setWidth 12 <<< 8) ||| ext.setWidth 12).toNat + 1

/-- `COUNT`, the number of blocks the command covers (R73, R74). -/
def Instr.count : Instr → Nat
  | .skip lf => shortCount lf
  | .skipLong lf ext => longCount lf ext
  | .repeatPrev lf => shortCount lf
  | .repeatPrevLong lf ext => longCount lf ext
  | .solid lf _ => shortCount lf
  | .solidLong lf ext _ => longCount lf ext
  | .solidSep lf _ => shortCount lf
  | .solidSepLong lf ext _ => longCount lf ext
  | .pal2 lf _ _ => shortCount lf
  | .pal2Cache lf _ _ => shortCount lf
  | .pal4 lf _ _ => shortCount lf
  | .pal4Cache lf _ _ => shortCount lf
  | .pal8 lf _ _ => shortCount lf
  | .pal8Cache lf _ _ => shortCount lf
  | .raw lf _ => shortCount lf
  | .rawLong lf ext _ => longCount lf ext

/-- `F`, the fixed payload bytes after the header and EXT: a colour, a palette or a slot index (R75). -/
def fixedPayload (tag : Nibble) : Nat :=
  match tag.toNat with
  | 0x4 | 0x5 | 0x6 | 0x7 => 1
  | 0x8 => 2
  | 0x9 => 1
  | 0xA => 4
  | 0xB => 1
  | 0xC => 8
  | 0xD => 1
  | _ => 0

/-- `B`, the payload bytes of each covered block (R75). -/
def perBlock (tag : Nibble) : Nat :=
  match tag.toNat with
  | 0x8 | 0x9 => 2
  | 0xA | 0xB => 4
  | 0xC | 0xD => 6
  | 0xE | 0xF => 16
  | _ => 0

/-- `LEN = 1 + (IsLong(TAG) ? 1 : 0) + F + COUNT * B`, the bytes a command takes in the stream (R76). -/
def commandLen (tag : Nibble) (count : Nat) : Nat :=
  1 + (if isLong tag then 1 else 0) + fixedPayload tag + count * perBlock tag

/-- `COUNT` as the header byte and the byte after it give it, for a tag of either length class (R72 to R74). -/
def headerCount (tag lf : Nibble) (ext : Byte) : Nat :=
  if isLong tag then longCount lf ext else shortCount lf

/-- Unpack_1: `v[k] = b[k div 8][7 - (k mod 8)]` (R121). -/
def unpack1 (b : Vector Byte 2) : Vector (BitVec 1) 16 :=
  Vector.ofFn fun k => (b[k.val / 8]).extractLsb' (7 - k.val % 8) 1

/-- Unpack_2: `v[k] = b[k div 4][s+1 : s]` with `s = 6 - 2*(k mod 4)` (R122). -/
def unpack2 (b : Vector Byte 4) : Vector (BitVec 2) 16 :=
  Vector.ofFn fun k => (b[k.val / 4]).extractLsb' (6 - 2 * (k.val % 4)) 2

/-- Lane `j` of 0..7 of the three bytes `a`, `m`, `z` of a 3-bit group: the table of R123. Lanes 2 and 5 straddle two
bytes and are the OR of two disjoint fields (R124). -/
def lane3 (a m z : Byte) (j : Nat) : BitVec 3 :=
  match j with
  | 0 => a.extractLsb' 5 3
  | 1 => a.extractLsb' 2 3
  | 2 => ((a.extractLsb' 0 2).setWidth 3 <<< 1) ||| (m.extractLsb' 7 1).setWidth 3
  | 3 => m.extractLsb' 4 3
  | 4 => m.extractLsb' 1 3
  | 5 => ((m.extractLsb' 0 1).setWidth 3 <<< 2) ||| (z.extractLsb' 6 2).setWidth 3
  | 6 => z.extractLsb' 3 3
  | _ => z.extractLsb' 0 3

/-- Unpack_3: bytes `b[3g..3g+2]` hold lanes `8g..8g+7` for `g` in 0, 1 (R123). -/
def unpack3 (b : Vector Byte 6) : Vector (BitVec 3) 16 :=
  Vector.ofFn fun k =>
    lane3 (b[3 * (k.val / 8)]) (b[3 * (k.val / 8) + 1]) (b[3 * (k.val / 8) + 2]) (k.val % 8)

/-- `S = b[0] ‖ b[1] ‖ ... ‖ b[k-1]`, the packed bytes as one bit string, `b[0]` in the most significant bits (R120). -/
def packedStream {k : Nat} (b : Vector Byte k) : BitVec (8 * k) :=
  BitVec.ofNat (8 * k) (b.toList.foldl (fun acc x => acc * 256 + x.toNat) 0)

/-- `Pack_w`: 16 values of `w` bits written contiguously MSB-first into `k = 2w` bytes (R126). -/
def packLanes {w : Nat} (k : Nat) (v : Vector (BitVec w) 16) : Vector Byte k :=
  Vector.ofFn fun i =>
    BitVec.ofNat 8 (v.toList.foldl (fun acc x => acc * 2 ^ w + x.toNat) 0 >>> (8 * (k - 1 - i.val)))

/-- `Pack_1`: 16 values of 1 bit into 2 bytes (R126). -/
def pack1 (v : Vector (BitVec 1) 16) : Vector Byte 2 := packLanes 2 v

/-- `Pack_2`: 16 values of 2 bits into 4 bytes (R126). -/
def pack2 (v : Vector (BitVec 2) 16) : Vector Byte 4 := packLanes 4 v

/-- `Pack_3`: 16 values of 3 bits into 6 bytes (R126). -/
def pack3 (v : Vector (BitVec 3) 16) : Vector Byte 6 := packLanes 6 v

/-- Mapping through a small palette: `blk[k] = PAL[v[k]]` (R125). A lane of `w` bits is less than `c = 2^w`, so the
lookup is always in range. -/
def mapPalette {c w : Nat} (hc : c = 2 ^ w) (pal : Palette c) (v : Vector (BitVec w) 16) : Block :=
  Vector.ofFn fun k => pal[(v[k.val]).toNat]'(hc ▸ (v[k.val]).isLt)

/-- The block of one 2-colour group (R125 with `c` = 2, `w` = 1). -/
def palBlock2 (pal : Palette 2) (b : Vector Byte 2) : Block := mapPalette (w := 1) rfl pal (unpack1 b)

/-- The block of one 4-colour group (R125 with `c` = 4, `w` = 2). -/
def palBlock4 (pal : Palette 4) (b : Vector Byte 4) : Block := mapPalette (w := 2) rfl pal (unpack2 b)

/-- The block of one 8-colour group (R125 with `c` = 8, `w` = 3). -/
def palBlock8 (pal : Palette 8) (b : Vector Byte 6) : Block := mapPalette (w := 3) rfl pal (unpack3 b)

/-- `[C] * 16`: the block of a SOLID command (R149). -/
def solidBlock (c : Byte) : Block := Vector.replicate 16 c

end Sys2Proof
end

