-- ==== Sys2Proof/WellFormed.lean ====
section
/-! DEFINITION. Which commands are well formed: a command with data bytes carries one group for each block it covers
(spec/30_encoding.md R75, R76). Every tag, every length field, every EXT byte and every operand byte is legal (R78), so
there is no other check. A term with FEWER groups than blocks is what the decoder hands on for a command that the end of
the frame cuts short: it is not well formed, and its meaning raises the truncation of R216. -/

namespace Sys2Proof

/-- The command carries exactly `COUNT` groups of data bytes, where its format has data (R75). -/
def Instr.wf : Instr → Bool
  | .skip _ | .skipLong _ _ | .repeatPrev _ | .repeatPrevLong _ _ => true
  | .solid _ _ | .solidLong _ _ _ | .solidSep _ _ | .solidSepLong _ _ _ => true
  | .pal2 lf _ data => data.length == shortCount lf
  | .pal2Cache lf _ data => data.length == shortCount lf
  | .pal4 lf _ data => data.length == shortCount lf
  | .pal4Cache lf _ data => data.length == shortCount lf
  | .pal8 lf _ data => data.length == shortCount lf
  | .pal8Cache lf _ data => data.length == shortCount lf
  | .raw lf data => data.length == shortCount lf
  | .rawLong lf ext data => data.length == longCount lf ext

end Sys2Proof
end

