-- ==== Sys2Proof/Decode.lean ====
section
/-! DEFINITION. The command decoder, total on any bytes and rejecting by name, and after it the encoder
(spec/30_encoding.md R70 to R80; spec/43_block_commands.md R141). -/

namespace Sys2Proof

/-- Why the bytes at the cursor are not one whole command: each is a truncation of spec/60_exceptions.md R211. No header
byte is illegal (R78), so there is no other rejection. -/
inductive DecodeError where
  /-- there is no header byte: the pass has ended (R163) -/
  | noHeader
  /-- the length-extension byte of a long command is missing (R74) -/
  | noExt
  /-- the colour byte of a SOLID command is missing (R149) -/
  | noColour
  /-- fewer palette bytes remain than the literal palette has (R153) -/
  | noPalette
  /-- the slot index of a cache-reference command is missing (R154) -/
  | noSelector
  /-- the data bytes end before the last block; `got` is the command with the whole groups that are there (R153, R161) -/
  | noBlockData (got : Instr)
  deriving DecidableEq, Repr

/-- What the decoder answers: a command and the bytes after it, or the name of the truncation. -/
abbrev Decoded := Except DecodeError (Instr × List Byte)

/-- `TAG = H[7:4]` (R70). -/
def headerTag (h : Byte) : Nibble := h.extractLsb' 4 4

/-- `LF = H[3:0]` (R70). -/
def headerLf (h : Byte) : Nibble := h.extractLsb' 0 4

/-- The header byte of a tag and a length field (R70). -/
def header (tag lf : Nibble) : Byte := tag ++ lf

/-- Take one byte of the stream, or stop with the name of what is missing (R142 `Need`). -/
def takeByte (missing : DecodeError) (p : List Byte) (k : Byte → List Byte → Decoded) : Decoded :=
  match p with
  | [] => .error missing
  | b :: rest => k b rest

/-- The first `n` bytes as a vector, and the rest, if `n` bytes remain (R142 `Need`). -/
def takeVector (n : Nat) (p : List Byte) : Option (Vector Byte n × List Byte) :=
  if h : (p.take n).length = n then
    some (⟨(p.take n).toArray, List.size_toArray.trans h⟩, p.drop n)
  else none

/-- Take a literal palette of `c` bytes (R153). -/
def takePalette (c : Nat) (p : List Byte) (k : Palette c → List Byte → Decoded) : Decoded :=
  match takeVector c p with
  | some (pal, rest) => k pal rest
  | none => .error .noPalette

/-- The groups of `n` bytes that are there, at most `count` of them, and the bytes after the last whole one (R76). -/
def takeGroups (n : Nat) : Nat → List Byte → List (Vector Byte n) × List Byte
  | 0, p => ([], p)
  | count + 1, p =>
    match takeVector n p with
    | some (g, rest) => (g :: (takeGroups n count rest).1, (takeGroups n count rest).2)
    | none => ([], p)

/-- The data bytes of a command: `count` groups of `n` bytes (R76), or the groups that are there. -/
def takeData (n count : Nat) (p : List Byte) (mk : List (Vector Byte n) → Instr) : Decoded :=
  if (takeGroups n count p).1.length = count then
    .ok (mk (takeGroups n count p).1, (takeGroups n count p).2)
  else .error (.noBlockData (mk (takeGroups n count p).1))

/-- Decode one command from the bytes at the cursor (R70 to R76, R141). The tags are those of R71; the last arm is 0xF,
the only tag the others leave. -/
def decode (bytes : List Byte) : Decoded :=
  match bytes with
  | [] => .error .noHeader
  | h :: p =>
    let lf := headerLf h
    match (headerTag h).toNat with
    | 0x0 => .ok (.skip lf, p)
    | 0x1 => takeByte .noExt p fun ext p => .ok (.skipLong lf ext, p)
    | 0x2 => .ok (.repeatPrev lf, p)
    | 0x3 => takeByte .noExt p fun ext p => .ok (.repeatPrevLong lf ext, p)
    | 0x4 => takeByte .noColour p fun c p => .ok (.solid lf c, p)
    | 0x5 => takeByte .noExt p fun ext p => takeByte .noColour p fun c p => .ok (.solidLong lf ext c, p)
    | 0x6 => takeByte .noColour p fun c p => .ok (.solidSep lf c, p)
    | 0x7 => takeByte .noExt p fun ext p => takeByte .noColour p fun c p => .ok (.solidSepLong lf ext c, p)
    | 0x8 => takePalette 2 p fun pal p => takeData 2 (shortCount lf) p (.pal2 lf pal)
    | 0x9 => takeByte .noSelector p fun i p => takeData 2 (shortCount lf) p (.pal2Cache lf i)
    | 0xA => takePalette 4 p fun pal p => takeData 4 (shortCount lf) p (.pal4 lf pal)
    | 0xB => takeByte .noSelector p fun i p => takeData 4 (shortCount lf) p (.pal4Cache lf i)
    | 0xC => takePalette 8 p fun pal p => takeData 6 (shortCount lf) p (.pal8 lf pal)
    | 0xD => takeByte .noSelector p fun i p => takeData 6 (shortCount lf) p (.pal8Cache lf i)
    | 0xE => takeData 16 (shortCount lf) p (.raw lf)
    | _ => takeByte .noExt p fun ext p => takeData 16 (longCount lf ext) p (.rawLong lf ext)

/-- The bytes of all groups, one after the other (R76). -/
def groupBytes {n : Nat} (data : List (Vector Byte n)) : List Byte := data.flatMap Vector.toList

/-- The bytes of a command, in stream order (R52, R76). -/
def encode : Instr → List Byte
  | .skip lf => [header 0x0#4 lf]
  | .skipLong lf ext => [header 0x1#4 lf, ext]
  | .repeatPrev lf => [header 0x2#4 lf]
  | .repeatPrevLong lf ext => [header 0x3#4 lf, ext]
  | .solid lf c => [header 0x4#4 lf, c]
  | .solidLong lf ext c => [header 0x5#4 lf, ext, c]
  | .solidSep lf c => [header 0x6#4 lf, c]
  | .solidSepLong lf ext c => [header 0x7#4 lf, ext, c]
  | .pal2 lf pal data => header 0x8#4 lf :: (pal.toList ++ groupBytes data)
  | .pal2Cache lf i data => header 0x9#4 lf :: i :: groupBytes data
  | .pal4 lf pal data => header 0xA#4 lf :: (pal.toList ++ groupBytes data)
  | .pal4Cache lf i data => header 0xB#4 lf :: i :: groupBytes data
  | .pal8 lf pal data => header 0xC#4 lf :: (pal.toList ++ groupBytes data)
  | .pal8Cache lf i data => header 0xD#4 lf :: i :: groupBytes data
  | .raw lf data => header 0xE#4 lf :: groupBytes data
  | .rawLong lf ext data => header 0xF#4 lf :: ext :: groupBytes data

/-- The length field of the short command that covers `n` blocks, for `n` in 1..16 (R80). -/
def shortLf (n : Nat) : Nibble := BitVec.ofNat 4 (n - 1)

/-- The length field of the long command that covers `n` blocks, for `n` in 1..4096: bits 11..8 of `n - 1` (R80). -/
def longLf (n : Nat) : Nibble := BitVec.ofNat 4 ((n - 1) >>> 8)

/-- The EXT byte of the long command that covers `n` blocks: bits 7..0 of `n - 1` (R80). -/
def longExt (n : Nat) : Byte := BitVec.ofNat 8 (n - 1)

/-- How a pseudo-instruction over `n` blocks expands: `(n - 1) div 4096` long commands of 4096 blocks, then a short one
if at most 16 blocks are left, else a long one (R80). -/
def expandOver (n : Nat) (short : Nibble → Instr) (long : Nibble → Byte → Instr) : List Instr :=
  let q := (n - 1) / 4096
  let m := n - 4096 * q
  List.replicate q (long (longLf 4096) (longExt 4096)) ++
    [if m ≤ 16 then short (shortLf m) else long (longLf m) (longExt m)]

/-- The pseudo-instruction `SKIPN n`, for `n >= 1` (R80). -/
def skipN (n : Nat) : List Instr := expandOver n .skip .skipLong

/-- The pseudo-instruction `FILL n, c`, for `n >= 1` (R80). -/
def fillN (n : Nat) (c : Byte) : List Instr := expandOver n (.solid · c) (.solidLong · · c)

/-- The bytes of a table word of `nbits` bits: bit 0 is the least significant bit of the first byte. -/
def tableBytes (nbits w : Nat) : List Byte :=
  (List.range ((nbits + 7) / 8)).map fun i => BitVec.ofNat 8 ((w % 2 ^ nbits) >>> (8 * i))

/-- A table word laid out as the stream holds it, with zero bytes after it up to the command's length (R76). -/
def tableCommand (nbits w : Nat) : List Byte :=
  let bytes := tableBytes nbits w
  let tag := headerTag (bytes.getD 0 0)
  let count := headerCount tag (headerLf (bytes.getD 0 0)) (bytes.getD 1 0)
  bytes ++ List.replicate (commandLen tag count - bytes.length) 0

/-- The command the decoder reads from a word of spec/opcode_table.json, every bit above `nbits` zero. -/
def decodeTableWord (nbits w : Nat) : Option Instr :=
  match decode (tableCommand nbits w) with
  | .ok (i, _) => some i
  | .error _ => none

end Sys2Proof
end

