-- ==== Sys2Proof/Config.lean ====
section
/-! DEFINITION. What the spec leaves open: the parameters of an instance (spec/00_scope.md R7) and the free values
that stand for everything the spec calls unspecified (spec/93_implementation_defined.md U1 to U6).
A free value is an `opaque` constant with no body, so nothing can be proved of the value it has. -/

namespace Sys2Proof

/-- The parameters the spec leaves OPEN (R7; D3, D4, D5). `none` is "no bound": D3 lets a model with unbounded memory
take the geometry bounds as infinite, and D4 lets `MAX_INPUT_BYTES` be unbounded. State holds one such record, which no
request and no command changes, so a statement about every state speaks of every choice of the parameters. -/
structure Params where
  /-- `MAX_WIDTH`, in pixels -/
  maxWidth : Option Nat
  /-- `MAX_HEIGHT`, in pixels -/
  maxHeight : Option Nat
  /-- `MAX_INPUT_BYTES`, the longest frame accepted -/
  maxInputBytes : Option Nat
  /-- `HAS_DEBUG_CHANNEL`: whether TAGS and DBG_OUT exist -/
  hasDebug : Bool
  deriving DecidableEq, Repr

namespace Config

/-- Byte `addr` of an output raster that the spec leaves unspecified (R214, U6, I4), at draw number `draw`. -/
opaque freeByte (draw addr : Nat) : Byte

/-- Block `q` of a block store whose content is unspecified (R28, U1), at draw number `draw`. -/
opaque freeBlock (draw q : Nat) : Block

/-- Entry `q` of a tag store whose content is unspecified (R32, U2), at draw number `draw`. -/
opaque freeTag (draw q : Nat) : Nibble

/-- The palette in slot `i` of a cache of width `c` whose content is unspecified (R131, U3), at draw number `draw`. -/
opaque freePalette (c draw i : Nat) : Palette c

/-- A register of natural numbers that is unspecified (R36, R37, U4, U5); `field` tells the registers of one draw apart. -/
opaque freeNat (draw field : Nat) : Nat

/-- A cache head that is unspecified (R37, U5), within the values R30 gives a head. -/
opaque freeHead (c draw : Nat) : Option (Fin 256)

/-- A cache count that is unspecified (R37, U5), within the values 0..256 that R30 gives a count. -/
opaque freeCount (c draw : Nat) : Fin 257

/-- A whole block store that is unspecified, its size included (R36, R37, U4, U5). -/
opaque freeBlocks (draw : Nat) : List Block

/-- A whole curve table that is unspecified, its size included (R36, R37, U4, U5). -/
opaque freeTable (draw : Nat) : List Nat

/-- A whole tag store that is unspecified, its size included (R36, R37, U4, U5). -/
opaque freeTags (draw : Nat) : List Nibble

end Config

end Sys2Proof
end

