-- ==== Sys2Proof/Machine/State.lean ====
section
/-! DEFINITION. The state of one instance of the core (spec/10_state.md R20 to R37), with the host's side of the
interface (spec/45_host_interface.md R190 to R194): the requests still to come, the request in progress, the output
rasters the core writes and the answer of the last READ_STATUS. -/

namespace Sys2Proof.Machine

/-- What stops the machine for good: NOTHING. Every error of the core ends a request and is recorded in STATUS, so it is
a next state (R212), no behaviour of this core hangs (spec/93_implementation_defined.md, treatment `stuck`: "not used"),
and a read outside an array in a state no run reaches answers a free value. The type has no constructor, so no meaning
can answer with a fault; that is safe. -/
inductive Fault
  deriving DecidableEq, Repr

/-- Why the model gives an instruction no meaning. -/
inductive Refusal where
  /-- raised by an arm of `exec` whose instruction is not modelled yet; no arm does so now. Safe: the machine stops. -/
  | notModelled (mnemonic : String)
  deriving DecidableEq, Repr

/-- `CFG_STATE` (R20). -/
inductive CfgState where
  | unconfigured
  | ready
  deriving DecidableEq, Repr

/-- The error kinds of `STATUS.KIND` (R210); their codes are in Machine/Flags.lean. -/
inductive Kind where
  | noError
  | truncated
  | invalidBackref
  | invalidGeometry
  | notConfigured
  | requestRefused
  deriving DecidableEq, Repr

/-- The causes of `STATUS.CAUSE` (R211); their codes are in Machine/Flags.lean. -/
inductive Cause where
  | noError
  | truncExt
  | truncSelector
  | truncPalette
  | truncColor
  | truncBlockdata
  | repeatAtZero
  | cacheIndex
  | blockOverrun
  | geomNonpositive
  | geomTooLarge
  | notConfigured
  | inputTooLarge
  deriving DecidableEq, Repr

/-- The status register `STATUS` (R23). -/
structure Status where
  kind : Kind
  cause : Cause
  posRead : Nat
  posBlock : Nat
  deriving DecidableEq, Repr

/-- `STATUS = (0, 0, 0, 0)`. -/
def Status.zero : Status := { kind := .noError, cause := .noError, posRead := 0, posBlock := 0 }

/-- What READ_STATUS answers: the four fields of STATUS as the numbers the host reads, and CFG_STATE (R194, R57). -/
structure StatusReport where
  kind : Nat
  cause : Nat
  posRead : Nat
  posBlock : Nat
  cfg : CfgState
  deriving DecidableEq, Repr

/-- The geometry registers `WIDTH`, `HEIGHT`, `BW`, `BH`, `NB`, `N`, `OX`, `OY` (R21, R22). -/
structure Geometry where
  width : Nat
  height : Nat
  bw : Nat
  bh : Nat
  nb : Nat
  n : Nat
  ox : Nat
  oy : Nat
  deriving DecidableEq, Repr

/-- One palette cache `CACHE_c` (R30): its 256 slots, `HEAD_c` (`none` is the EMPTY sentinel) and `COUNT_c`. -/
structure Cache (c : Nat) where
  slots : Vector (Palette c) 256
  head : Option (Fin 256)
  count : Nat
  deriving DecidableEq, Repr

/-- The arguments of the DECODE_FRAME in progress (R35, R192): `IN[0..L-1]`, whose length is `L`, and the debug flag. -/
structure Frame where
  input : List Byte
  debug : Bool
  deriving DecidableEq, Repr

/-- A host request (R190 to R194, R240). -/
inductive Request where
  /-- hardware RESET (R240) -/
  | reset
  /-- CONSTRUCT(w, h), in pixels; a negative value is representable (R191) -/
  | construct (w h : Int)
  /-- DECODE_FRAME(IN[0..L-1], debug) (R192) -/
  | decodeFrame (input : List Byte) (debug : Bool)
  /-- DESTROY() (R193) -/
  | destroy
  /-- READ_STATUS() (R194) -/
  | readStatus
  deriving DecidableEq, Repr

/-- Everything one instance of the core holds, with the host's side of the interface. -/
structure State where
  /-- the parameters of the instance (R7); nothing changes them -/
  params : Params
  /-- `CFG_STATE` (R20) -/
  cfg : CfgState
  /-- the geometry registers (R21, R22) -/
  geo : Geometry
  /-- `STATUS` (R23) -/
  status : Status
  /-- `read_pos`, the program counter's analogue (R26) -/
  readPos : Nat
  /-- `block_pos` (R25) -/
  blockPos : Nat
  /-- the block store `BS`, entry `q` at index `q` (R28) -/
  bs : List Block
  /-- the curve table `LUT` (R29) -/
  lut : List Nat
  /-- `CACHE_2` (R30) -/
  cache2 : Cache 2
  /-- `CACHE_4` (R30) -/
  cache4 : Cache 4
  /-- `CACHE_8` (R30) -/
  cache8 : Cache 8
  /-- the debug tag store `TAGS` (R32); empty where there is no debug channel -/
  tags : List Nibble
  /-- the host's output raster `OUT`, as the core last left it (R35, R180) -/
  out : List Byte
  /-- the host's debug raster `DBG_OUT`, as the core last left it (R35, R182) -/
  dbgOut : List Byte
  /-- the DECODE_FRAME in progress, if there is one (R192) -/
  frame : Option Frame
  /-- the requests the host issues after this one, first to come first (R190) -/
  requests : List Request
  /-- the answer of the last READ_STATUS (R194) -/
  answer : Option StatusReport
  /-- the MODEL's own counter of the draws of unspecified values; not a register of the core -/
  draws : Nat
  deriving DecidableEq, Repr

/-- A cache whose slots hold zero bytes, reset (`HEAD` EMPTY, `COUNT` 0). -/
def Cache.zero (c : Nat) : Cache c :=
  { slots := Vector.replicate 256 (Vector.replicate c 0), head := none, count := 0 }

/-- The machine right after hardware RESET (R36, R240). CFG_STATE, the cache heads and counts, the cursors and STATUS
are the spec's. The geometry, LUT, BS, TAGS and the cache slots are unspecified there, and zero or empty here (DESIGN
CHOICE, notes/assumptions/1.md). OUT and DBG_OUT are the host's (R35). The instance has no bounds and has the debug
channel (DESIGN CHOICE, notes/assumptions/2.md). -/
def State.reset : State where
  params := { maxWidth := none, maxHeight := none, maxInputBytes := none, hasDebug := true }
  cfg := .unconfigured
  geo := { width := 0, height := 0, bw := 0, bh := 0, nb := 0, n := 0, ox := 0, oy := 0 }
  status := .zero
  readPos := 0
  blockPos := 0
  bs := []
  lut := []
  cache2 := .zero 2
  cache4 := .zero 4
  cache8 := .zero 8
  tags := []
  out := []
  dbgOut := []
  frame := none
  requests := []
  answer := none
  draws := 0

end Sys2Proof.Machine
end

