-- ==== Sys2Proof/Machine/Flags.lean ====
section
/-! DEFINITION. The status codes. The core has no condition flags: the only flag-like state is `STATUS.KIND`, which the
core writes at the end of a request and no command reads (spec/10_state.md R33). This file holds the numeric codes of
`STATUS.KIND` and `STATUS.CAUSE` (spec/60_exceptions.md R210, R211) and what READ_STATUS shows of them. -/

namespace Sys2Proof.Machine

/-- The code of an error kind (R210). -/
def Kind.code : Kind → Nat
  | .noError => 0
  | .truncated => 1
  | .invalidBackref => 2
  | .invalidGeometry => 3
  | .notConfigured => 4
  | .requestRefused => 5

/-- The code of a cause (R211). -/
def Cause.code : Cause → Nat
  | .noError => 0
  | .truncExt => 1
  | .truncSelector => 2
  | .truncPalette => 3
  | .truncColor => 4
  | .truncBlockdata => 5
  | .repeatAtZero => 6
  | .cacheIndex => 7
  | .blockOverrun => 8
  | .geomNonpositive => 9
  | .geomTooLarge => 10
  | .notConfigured => 11
  | .inputTooLarge => 12

/-- The kind each cause is recorded with, the KIND column of R211. -/
def Cause.kind : Cause → Kind
  | .noError => .noError
  | .truncExt => .truncated
  | .truncSelector => .truncated
  | .truncPalette => .truncated
  | .truncColor => .truncated
  | .truncBlockdata => .truncated
  | .repeatAtZero => .invalidBackref
  | .cacheIndex => .invalidBackref
  | .blockOverrun => .invalidBackref
  | .geomNonpositive => .invalidGeometry
  | .geomTooLarge => .invalidGeometry
  | .notConfigured => .notConfigured
  | .inputTooLarge => .requestRefused

/-- The STATUS a request ends with: the cause, its kind, and the two positions (R23, R212). -/
def Cause.status (c : Cause) (posRead posBlock : Nat) : Status :=
  { kind := c.kind, cause := c, posRead := posRead, posBlock := posBlock }

/-- What the host reads: the four fields as numbers, and CFG_STATE (R194). -/
def State.report (s : State) : StatusReport :=
  { kind := s.status.kind.code, cause := s.status.cause.code, posRead := s.status.posRead,
    posBlock := s.status.posBlock, cfg := s.cfg }

end Sys2Proof.Machine
end

