-- ==== Sys2Proof/Machine/Ops.lean ====
section
/-! DEFINITION. The named operations over the state: the block store and the tag store (spec/20_memory.md R50, R59), the
palette caches (spec/42_palette_cache.md R130 to R138), the checks of a command (spec/43_block_commands.md R142, R143),
its commit (R141, R144), error entry (spec/60_exceptions.md R212 to R215), and the bodies that several commands share. -/

namespace Sys2Proof.Machine

/-- What a step answers. -/
abbrev Result := Host.Outcome State Fault Refusal

/-! ### The block store and the tag store -/

/-- `MemRead(BS, q, 16)` (R11, R59). An index past the store, which no run reaches, reads as a free block. -/
def State.readBlock (s : State) (q : Nat) : Block := s.bs.getD q (Config.freeBlock s.draws q)

/-- Byte `k` of block-store entry `q`, for `k` in 0..15: the read of one byte of BS (R50, R59). -/
def State.readByte (s : State) (q : Nat) (k : Fin 16) : Byte := (s.readBlock q)[k.val]

/-- The block writes of a commit: `MemWrite(BS, q + j, 16, blocks[j])` for `j = 0, 1, ...` in order (R141). -/
def writeBlocks (bs : List Block) (q : Nat) : List Block → List Block
  | [] => bs
  | b :: rest => writeBlocks (bs.set q b) (q + 1) rest

/-- The tag writes of a commit: `TAGS[q + j] <- TAG` for `j = 0 .. count-1` (R144). -/
def writeTags (tags : List Nibble) (q : Nat) (tag : Nibble) : Nat → List Nibble
  | 0 => tags
  | count + 1 => writeTags (tags.set q tag) (q + 1) tag count

/-! ### The palette caches -/

/-- `CacheReset_c()`: HEAD EMPTY and COUNT 0, the slots retained (R132). -/
def Cache.reset {c : Nat} (k : Cache c) : Cache c := { k with head := none, count := 0 }

/-- The slot the next add goes to: 0 after a reset, else `(HEAD_c + 1) mod 256` (R133). -/
def Cache.nextHead {c : Nat} (k : Cache c) : Fin 256 :=
  match k.head with
  | none => 0
  | some h => h + 1

/-- `CacheAdd_c(P)` (R133). -/
def Cache.add {c : Nat} (k : Cache c) (pal : Palette c) : Cache c :=
  { slots := k.slots.set k.nextHead.val pal k.nextHead.isLt
    head := some k.nextHead
    count := min (k.count + 1) 256 }

/-- `CacheGet_c(i)`: direct slot lookup, no state change (R134, R137). The caller has checked `i < COUNT_c`. -/
def Cache.get {c : Nat} (k : Cache c) (i : Byte) : Palette c := k.slots[i.toNat]'i.isLt

/-! ### The checks of a command -/

/-- `Room(j)`: block `j` of the command lies inside the block store (R142). -/
def State.room (s : State) (j : Nat) : Except Cause Unit :=
  if s.blockPos + j ≥ s.geo.nb then .error .blockOverrun else .ok ()

/-- `Need(p, k, TRUNC_BLOCKDATA)` for block `j`, when `avail` whole groups of data bytes are there (R142). -/
def needGroup (avail j : Nat) : Except Cause Unit :=
  if avail ≤ j then .error .truncBlockdata else .ok ()

/-- `Room(j), Room(j+1), ...` for `n` blocks, in order (R145, R147, R149). -/
def State.roomFrom (s : State) (j : Nat) : Nat → Except Cause Unit
  | 0 => .ok ()
  | n + 1 =>
    match s.room j with
    | .error c => .error c
    | .ok _ => s.roomFrom (j + 1) n

/-- `Room(j)` then `Need` of block `j`, then the same for `j+1, ...`, for `n` blocks (R143, R153, R154, R161, R216). -/
def State.roomDataFrom (s : State) (avail j : Nat) : Nat → Except Cause Unit
  | 0 => .ok ()
  | n + 1 =>
    match s.room j with
    | .error c => .error c
    | .ok _ =>
      match needGroup avail j with
      | .error c => .error c
      | .ok _ => s.roomDataFrom avail (j + 1) n

/-! ### Commit and error entry -/

/-- Commit of a command with tag `tag`, `count` blocks and `len` bytes (R141): the block writes in order, the tag writes
if there is a debug channel (R144), and the two cursors. A cache add has been made in `s` before (R153). -/
def State.commit (s : State) (tag : Nibble) (count len : Nat) (blocks : List Block) : State :=
  { s with
    bs := writeBlocks s.bs s.blockPos blocks
    tags := if s.params.hasDebug then writeTags s.tags s.blockPos tag count else s.tags
    readPos := s.readPos + len
    blockPos := s.blockPos + count }

/-- A raster of `WIDTH*HEIGHT` bytes whose values are unspecified (R214). -/
def State.freeRaster (s : State) (draw : Nat) : List Byte :=
  (List.range (s.geo.width * s.geo.height)).map (Config.freeByte draw)

/-- ERROR ENTRY, the one operation behind every `raise Error(KIND, CAUSE)` of a command (R12, R212 to R214): the command
commits nothing, the pass stops, Assemble does not run, STATUS records the kind, the cause and the cursors at the start of
the failing command, OUT and DBG_OUT become unspecified, and the request ends. There is no return from an error (R215). -/
def State.raiseError (s : State) (c : Cause) : State :=
  { s with
    frame := none
    status := c.status s.readPos s.blockPos
    out := s.freeRaster s.draws
    dbgOut := if s.params.hasDebug then s.freeRaster (s.draws + 1) else s.dbgOut
    draws := s.draws + 2 }

/-- The end of a command's body: commit what it answers, or enter the error it raises (R141). -/
def State.conclude (s : State) (body : Except Cause State) : Result :=
  match body with
  | .ok t => .next t
  | .error c => .next (s.raiseError c)

/-! ### The bodies several commands share -/

/-- The body of SKIP and SKIP-long: check every block, write none (R145, R146). -/
def State.skipBody (s : State) (tag : Nibble) (count : Nat) : Except Cause State :=
  match s.roomFrom 0 count with
  | .error c => .error c
  | .ok _ => .ok (s.commit tag count (commandLen tag count) [])

/-- The body of REPEAT and REPEAT-long: copy the block before `block_pos` (R147, R148). The reads of a body see the state
before the command, and copying the just-written slot gives the same bytes as copying `src` each time (R147). -/
def State.repeatBody (s : State) (tag : Nibble) (count : Nat) : Except Cause State :=
  if s.blockPos = 0 then .error .repeatAtZero
  else
    match s.roomFrom 0 count with
    | .error c => .error c
    | .ok _ => .ok (s.commit tag count (commandLen tag count)
        (List.replicate count (s.readBlock (s.blockPos - 1))))

/-- The body of the SOLID family: every byte of every covered block is `c` (R149 to R152). -/
def State.solidBody (s : State) (tag : Nibble) (count : Nat) (c : Byte) : Except Cause State :=
  match s.roomFrom 0 count with
  | .error e => .error e
  | .ok _ => .ok (s.commit tag count (commandLen tag count) (List.replicate count (solidBlock c)))

/-- The body of every command with data bytes, once its palette is known: check block after block, then commit the block
of each group, in `added`, which is `s` with the cache add of a literal palette (R153), or `s` itself (R154, R161). -/
def State.dataBody (s added : State) (tag : Nibble) (count : Nat) (blocks : List Block) : Except Cause State :=
  match s.roomDataFrom blocks.length 0 count with
  | .error c => .error c
  | .ok _ => .ok (added.commit tag count (commandLen tag count) (blocks.take count))

/-- `PalCacheRef(c, w)`: the slot index must be below COUNT_c, then as a literal with the fetched palette and no cache add
(R154); `blockOf` is the unpacking and mapping of one group. -/
def State.cacheRefBody {c k : Nat} (s : State) (cache : Cache c) (tag : Nibble) (count : Nat) (slot : Byte)
    (data : List (Vector Byte k)) (blockOf : Palette c → Vector Byte k → Block) : Except Cause State :=
  if slot.toNat ≥ cache.count then .error .cacheIndex
  else s.dataBody s tag count (data.map (blockOf (cache.get slot)))

/-! ### The frame in progress -/

/-- The start of an admitted DECODE_FRAME: the three caches reset, both cursors 0 (R140, R242). -/
def State.beginFrame (s : State) (input : List Byte) (debug : Bool) : State :=
  { s with
    frame := some { input := input, debug := debug }
    cache2 := s.cache2.reset
    cache4 := s.cache4.reset
    cache8 := s.cache8.reset
    readPos := 0
    blockPos := 0 }

/-- The bytes of `IN` from `read_pos` on: what the next command is decoded from (R26, R52). -/
def State.unread (s : State) (f : Frame) : List Byte := f.input.drop s.readPos

end Sys2Proof.Machine
end

