-- ==== Sys2Proof/Machine/Assembler.lean ====
section
/-! DEFINITION. The Frame Assembler and the debug raster (spec/44_frame_assembler.md R180 to R185). -/

namespace Sys2Proof.Machine

/-- `LUT[r]`, the curve position of raster block `r` (R108). An index past the table, which no run reaches, reads as a
free value. -/
def State.curveOf (s : State) (r : Nat) : Nat := s.lut.getD r (Config.freeNat s.draws r)

/-- The curve position of the block that holds pixel `(x, y)`: `LUT[(x div 4) + (y div 4) * BW]` (R180). -/
def State.blockOfPixel (s : State) (x y : Nat) : Nat := s.curveOf (x / 4 + (y / 4) * s.geo.bw)

/-- The byte the Frame Assembler writes for pixel `(x, y)` (R180). -/
def State.pixel (s : State) (x y : Nat) : Byte :=
  (s.readBlock (s.blockOfPixel x y))[x % 4 + (y % 4) * 4]'(by omega)

/-- `TAGS[q]`. An index past the store, which no run reaches, reads as a free tag. -/
def State.tagAt (s : State) (q : Nat) : Nibble := s.tags.getD q (Config.freeTag s.draws q)

/-- The byte of the debug raster for pixel `(x, y)`: `zext_8(TAGS[LUT[r]])` (R182). -/
def State.debugPixel (s : State) (x y : Nat) : Byte := (s.tagAt (s.blockOfPixel x y)).setWidth 8

/-- A raster of `WIDTH*HEIGHT` bytes, pixel `(x, y)` at index `x + y*WIDTH` (R56). -/
def State.raster (s : State) (pixelAt : Nat → Nat → Byte) : List Byte :=
  (List.range (s.geo.width * s.geo.height)).map fun a => pixelAt (a % s.geo.width) (a / s.geo.width)

/-- The normal end of a DECODE_FRAME: `Assemble()`, with the debug raster if the channel exists and the request asks for
it, and then `STATUS <- (0, 0, L, block_pos)` (R163, R180, R182, R192). -/
def State.finishFrame (s : State) (f : Frame) : State :=
  { s with
    frame := none
    out := s.raster s.pixel
    dbgOut := if s.params.hasDebug && f.debug then s.raster s.debugPixel else s.dbgOut
    status := Cause.noError.status f.input.length s.blockPos }

end Sys2Proof.Machine
end

