-- ==== Sys2Proof/Machine/Palette.lean ====
section
/-! DEFINITION. The palette families (spec/43_block_commands.md R153 to R160): a literal palette is pushed onto its cache
when the command commits, a cache reference reads its cache and leaves it as it is. -/

namespace Sys2Proof.Machine

/-- PAL2 (R155), `PalLiteral(2, 1)` of R153. -/
def execPal2 (lf : Nibble) (pal : Palette 2) (data : List (Vector Byte 2)) (s : State) : Result :=
  s.conclude (s.dataBody { s with cache2 := s.cache2.add pal } 0x8#4 (shortCount lf) (data.map (palBlock2 pal)))

/-- PAL2-cache (R156), `PalCacheRef(2, 1)` of R154. -/
def execPal2Cache (lf : Nibble) (slot : Byte) (data : List (Vector Byte 2)) (s : State) : Result :=
  s.conclude (s.cacheRefBody s.cache2 0x9#4 (shortCount lf) slot data palBlock2)

/-- PAL4 (R157), `PalLiteral(4, 2)` of R153. -/
def execPal4 (lf : Nibble) (pal : Palette 4) (data : List (Vector Byte 4)) (s : State) : Result :=
  s.conclude (s.dataBody { s with cache4 := s.cache4.add pal } 0xA#4 (shortCount lf) (data.map (palBlock4 pal)))

/-- PAL4-cache (R158), `PalCacheRef(4, 2)` of R154. -/
def execPal4Cache (lf : Nibble) (slot : Byte) (data : List (Vector Byte 4)) (s : State) : Result :=
  s.conclude (s.cacheRefBody s.cache4 0xB#4 (shortCount lf) slot data palBlock4)

/-- PAL8 (R159), `PalLiteral(8, 3)` of R153. -/
def execPal8 (lf : Nibble) (pal : Palette 8) (data : List (Vector Byte 6)) (s : State) : Result :=
  s.conclude (s.dataBody { s with cache8 := s.cache8.add pal } 0xC#4 (shortCount lf) (data.map (palBlock8 pal)))

/-- PAL8-cache (R160), `PalCacheRef(8, 3)` of R154. -/
def execPal8Cache (lf : Nibble) (slot : Byte) (data : List (Vector Byte 6)) (s : State) : Result :=
  s.conclude (s.cacheRefBody s.cache8 0xD#4 (shortCount lf) slot data palBlock8)

end Sys2Proof.Machine
end

