-- ==== Sys2Proof/Machine/Raw.lean ====
section
/-! DEFINITION. The RAW family (spec/43_block_commands.md R161, R162): payload byte `i` of a block goes to block byte `i`. -/

namespace Sys2Proof.Machine

/-- RAW (R161). -/
def execRaw (lf : Nibble) (data : List Block) (s : State) : Result :=
  s.conclude (s.dataBody s 0xE#4 (shortCount lf) data)

/-- RAW-long (R162). -/
def execRawLong (lf : Nibble) (ext : Byte) (data : List Block) (s : State) : Result :=
  s.conclude (s.dataBody s 0xF#4 (longCount lf ext) data)

end Sys2Proof.Machine
end

