-- ==== Sys2Proof/Machine/Repeat.lean ====
section
/-! DEFINITION. The REPEAT family (spec/43_block_commands.md R147, R148). -/

namespace Sys2Proof.Machine

/-- REPEAT (R147). -/
def execRepeatPrev (lf : Nibble) (s : State) : Result :=
  s.conclude (s.repeatBody 0x2#4 (shortCount lf))

/-- REPEAT-long (R148). -/
def execRepeatPrevLong (lf : Nibble) (ext : Byte) (s : State) : Result :=
  s.conclude (s.repeatBody 0x3#4 (longCount lf ext))

end Sys2Proof.Machine
end

