-- ==== Sys2Proof/Machine/Skip.lean ====
section
/-! DEFINITION. The SKIP family (spec/43_block_commands.md R145, R146). -/

namespace Sys2Proof.Machine

/-- SKIP (R145). -/
def execSkip (lf : Nibble) (s : State) : Result :=
  s.conclude (s.skipBody 0x0#4 (shortCount lf))

/-- SKIP-long (R146). -/
def execSkipLong (lf : Nibble) (ext : Byte) (s : State) : Result :=
  s.conclude (s.skipBody 0x1#4 (longCount lf ext))

end Sys2Proof.Machine
end

