-- ==== Sys2Proof/Machine/Solid.lean ====
section
/-! DEFINITION. The SOLID and SOLID-SEP family (spec/43_block_commands.md R149 to R152). The two pairs differ only in the
tag they leave in TAGS (R151). -/

namespace Sys2Proof.Machine

/-- SOLID (R149). -/
def execSolid (lf : Nibble) (c : Byte) (s : State) : Result :=
  s.conclude (s.solidBody 0x4#4 (shortCount lf) c)

/-- SOLID-long (R150). -/
def execSolidLong (lf : Nibble) (ext c : Byte) (s : State) : Result :=
  s.conclude (s.solidBody 0x5#4 (longCount lf ext) c)

/-- SOLID-SEP (R151). -/
def execSolidSep (lf : Nibble) (c : Byte) (s : State) : Result :=
  s.conclude (s.solidBody 0x6#4 (shortCount lf) c)

/-- SOLID-SEP-long (R152). -/
def execSolidSepLong (lf : Nibble) (ext c : Byte) (s : State) : Result :=
  s.conclude (s.solidBody 0x7#4 (longCount lf ext) c)

end Sys2Proof.Machine
end

