-- ==== Sys2Proof/Machine/Dispatch.lean ====
section
/-! DEFINITION. One arm per command: the meaning of spec/43_block_commands.md R145 to R162. -/

namespace Sys2Proof.Machine

def exec (i : Instr) (s : State) : Host.Outcome State Fault Refusal :=
  match i with
  | .skip lf => Sys2Proof.Machine.execSkip lf s
  | .skipLong lf ext => Sys2Proof.Machine.execSkipLong lf ext s
  | .repeatPrev lf => Sys2Proof.Machine.execRepeatPrev lf s
  | .repeatPrevLong lf ext => Sys2Proof.Machine.execRepeatPrevLong lf ext s
  | .solid lf c => Sys2Proof.Machine.execSolid lf c s
  | .solidLong lf ext c => Sys2Proof.Machine.execSolidLong lf ext c s
  | .solidSep lf c => Sys2Proof.Machine.execSolidSep lf c s
  | .solidSepLong lf ext c => Sys2Proof.Machine.execSolidSepLong lf ext c s
  | .pal2 lf pal data => Sys2Proof.Machine.execPal2 lf pal data s
  | .pal2Cache lf slot data => Sys2Proof.Machine.execPal2Cache lf slot data s
  | .pal4 lf pal data => Sys2Proof.Machine.execPal4 lf pal data s
  | .pal4Cache lf slot data => Sys2Proof.Machine.execPal4Cache lf slot data s
  | .pal8 lf pal data => Sys2Proof.Machine.execPal8 lf pal data s
  | .pal8Cache lf slot data => Sys2Proof.Machine.execPal8Cache lf slot data s
  | .raw lf data => Sys2Proof.Machine.execRaw lf data s
  | .rawLong lf ext data => Sys2Proof.Machine.execRawLong lf ext data s

end Sys2Proof.Machine
end

