-- ==== Sys2Proof/Machine/Curve.lean ====
section
/-! DEFINITION. The Curve Builder: the geometry of an instance (spec/00_scope.md R8) and the Hilbert-curve table
(spec/40_curve_builder.md R100 to R110). -/

namespace Sys2Proof.Machine

/-- Double `n` until it reaches `m`, at most `fuel` times. -/
def growSide : Nat → Nat → Nat → Nat
  | 0, _, n => n
  | fuel + 1, m, n => if m ≤ n then n else growSide fuel m (2 * n)

/-- The smallest power of two that is at least `m` (R100); `m` doublings of 1 always suffice. -/
def enclosingSide (m : Nat) : Nat := growSide m m 1

/-- The geometry registers CONSTRUCT computes from WIDTH and HEIGHT (R8): `BW`, `BH` by rounding up, `NB`, the side `N`
of the enclosing square, and the centring offsets, rounded down (R101, D6). -/
def geometryOf (width height : Nat) : Geometry :=
  let bw := (width + 3) / 4
  let bh := (height + 3) / 4
  let n := enclosingSide (max bw bh)
  { width := width, height := height, bw := bw, bh := bh, nb := bw * bh, n := n
    ox := (n - bw) / 2, oy := (n - bh) / 2 }

/-- `BASE[d]`: the coordinate of the lowest digit (R102). -/
def hilbertBase (d : Nat) : Nat × Nat :=
  match d with
  | 0 => (0, 0)
  | 1 => (0, 1)
  | 2 => (1, 1)
  | _ => (1, 0)

/-- `Transform(d, h, x, y)`: the digit transform at half-size `h` (R103). -/
def hilbertTransform (d h : Nat) (p : Nat × Nat) : Nat × Nat :=
  match d with
  | 0 => (p.2, p.1)
  | 1 => (p.1, p.2 + h)
  | 2 => (p.1 + h, p.2 + h)
  | _ => (2 * h - 1 - p.2, h - 1 - p.1)

/-- The loop of HilbertXY: `i` doubles from 4 while `i ≤ N`, and each turn takes the next digit of `t` (R103, R104). -/
def hilbertLoop (n : Nat) : Nat → Nat → Nat → Nat × Nat → Nat × Nat
  | 0, _, _, p => p
  | fuel + 1, i, t, p =>
    if i ≤ n then hilbertLoop n fuel (i * 2) (t / 4) (hilbertTransform (t % 4) (i / 2) p) else p

/-- `HilbertXY(N, t)` (R104). `i` doubles at every turn, so the loop ends before `N` turns. -/
def hilbertXY (n t : Nat) : Nat × Nat := hilbertLoop n n 4 (t / 4) (hilbertBase (t % 4))

/-- The square point is inside the embedded grid (R101). -/
def Geometry.inside (g : Geometry) (p : Nat × Nat) : Bool :=
  decide (g.ox ≤ p.1 ∧ p.1 < g.ox + g.bw ∧ g.oy ≤ p.2 ∧ p.2 < g.oy + g.bh)

/-- The raster block index of a square point inside the grid: `(x - OX) + (y - OY)*BW` (R104). -/
def Geometry.rasterOf (g : Geometry) (p : Nat × Nat) : Nat := (p.1 - g.ox) + (p.2 - g.oy) * g.bw

/-- The walk of BuildLUT over the Hilbert indices `ts`, with the next sequence number and the table so far (R104). -/
def placeBlocks (g : Geometry) : List Nat → Nat → List Nat → List Nat
  | [], _, lut => lut
  | t :: ts, seq, lut =>
    if g.inside (hilbertXY g.n t) then
      if seq + 1 = g.nb then lut.set (g.rasterOf (hilbertXY g.n t)) seq
      else placeBlocks g ts (seq + 1) (lut.set (g.rasterOf (hilbertXY g.n t)) seq)
    else placeBlocks g ts seq lut

/-- `BuildLUT()` (R104). Every entry is written, since the table is a permutation (R106): the 0 each starts from stays
nowhere. -/
def buildLut (g : Geometry) : List Nat :=
  placeBlocks g (List.range (g.n * g.n)) 0 (List.replicate g.nb 0)

end Sys2Proof.Machine
end

