-- ==== Sys2Proof/Machine/Requests.lean ====
section
/-! DEFINITION. The host requests (spec/45_host_interface.md R190 to R199; spec/70_reset_and_hazards.md R240 to R242). -/

namespace Sys2Proof.Machine

/-- A cache whose head, count and slots are all unspecified (R37). -/
def Cache.unspecified (c draw : Nat) : Cache c :=
  { slots := Vector.ofFn fun i => Config.freePalette c draw i.val
    head := Config.freeHead c draw
    count := (Config.freeCount c draw).val }

/-- `init(c)`: an empty cache whose slots are unspecified (R131). -/
def Cache.init (c draw : Nat) : Cache c := (Cache.unspecified c draw).reset

/-- A geometry whose registers are all unspecified (R37, R36). -/
def Geometry.unspecified (draw : Nat) : Geometry where
  width := Config.freeNat draw 0
  height := Config.freeNat draw 1
  bw := Config.freeNat draw 2
  bh := Config.freeNat draw 3
  nb := Config.freeNat draw 4
  n := Config.freeNat draw 5
  ox := Config.freeNat draw 6
  oy := Config.freeNat draw 7

/-- Every array and geometry register becomes unspecified (R37, U5); TAGS only where it exists (R32). -/
def State.forget (s : State) : State :=
  { s with
    geo := .unspecified s.draws
    bs := Config.freeBlocks s.draws
    lut := Config.freeTable s.draws
    tags := if s.params.hasDebug then Config.freeTags s.draws else s.tags
    cache2 := .unspecified 2 s.draws
    cache4 := .unspecified 4 s.draws
    cache8 := .unspecified 8 s.draws
    draws := s.draws + 1 }

/-- RESET (R240, R36): UNCONFIGURED, every cache empty, both cursors 0, STATUS zero, everything else of the core
unspecified. The host's buffers, its further requests and the instance's parameters are not the core's to reset. -/
def State.hardwareReset (s : State) : State :=
  { s.forget with
    cfg := .unconfigured
    cache2 := .init 2 s.draws
    cache4 := .init 4 s.draws
    cache8 := .init 8 s.draws
    readPos := 0
    blockPos := 0
    status := .zero }

/-- The success branch of CONSTRUCT (R191, R36): the geometry, the curve table, an unspecified block store and tag store
of `NB` entries, three empty caches, cursors 0, READY, STATUS zero. -/
def State.configure (s : State) (width height : Nat) : State :=
  { s with
    geo := geometryOf width height
    lut := buildLut (geometryOf width height)
    bs := (List.range (geometryOf width height).nb).map (Config.freeBlock s.draws)
    tags := if s.params.hasDebug then (List.range (geometryOf width height).nb).map (Config.freeTag s.draws) else []
    cache2 := .init 2 s.draws
    cache4 := .init 4 s.draws
    cache8 := .init 8 s.draws
    readPos := 0
    blockPos := 0
    cfg := .ready
    status := .zero
    draws := s.draws + 1 }

/-- `fail(cause)` of CONSTRUCT (R191): UNCONFIGURED, every other array and register unspecified, the cursors among them,
and STATUS records the cause. -/
def State.failConstruct (s : State) (c : Cause) : State :=
  { s.forget with
    cfg := .unconfigured
    readPos := Config.freeNat s.draws 8
    blockPos := Config.freeNat s.draws 9
    status := c.status 0 0 }

/-- A pixel size is beyond its bound; no bound is never exceeded (R7, D3). -/
def exceeds (size : Int) (bound : Option Nat) : Bool :=
  match bound with
  | none => false
  | some m => decide (size > m)

/-- `CONSTRUCT(w, h)` (R191, R217). -/
def State.construct (s : State) (w h : Int) : State :=
  if w ≤ 0 ∨ h ≤ 0 then s.failConstruct .geomNonpositive
  else if exceeds w s.params.maxWidth ∨ exceeds h s.params.maxHeight then s.failConstruct .geomTooLarge
  else s.configure w.toNat h.toNat

/-- A DECODE_FRAME refused at admission: only STATUS changes (R195, R196). -/
def State.refuse (s : State) (c : Cause) : State := { s with status := c.status 0 0 }

/-- The admission of `DECODE_FRAME(IN, debug)`: refused, or begun (R192, R195, R196, R217). -/
def State.admitFrame (s : State) (input : List Byte) (debug : Bool) : State :=
  if s.cfg ≠ .ready then s.refuse .notConfigured
  else if exceeds input.length s.params.maxInputBytes then s.refuse .inputTooLarge
  else s.beginFrame input debug

/-- `DESTROY()` (R193, R37): on a READY instance everything is released; on an UNCONFIGURED one only STATUS is written. -/
def State.destroy (s : State) : State :=
  if s.cfg = .ready then { s.forget with cfg := .unconfigured, status := .zero }
  else { s with status := .zero }

/-- `READ_STATUS()`: the answer goes to the host, and no state of the core changes (R194). -/
def State.readStatus (s : State) : State := { s with answer := some s.report }

/-- The meaning of each request (R190). A DECODE_FRAME is only begun here; its commands and its end are further steps. -/
def State.serve (s : State) (r : Request) : State :=
  match r with
  | .reset => s.hardwareReset
  | .construct w h => s.construct w h
  | .decodeFrame input debug => s.admitFrame input debug
  | .destroy => s.destroy
  | .readStatus => s.readStatus

/-- Between requests: take the next one, or wait where there is none (R190, R240). -/
def State.idle (s : State) : State :=
  match s.requests with
  | [] => s
  | r :: rest => ({ s with requests := rest } : State).serve r

end Sys2Proof.Machine
end

