-- ==== Sys2Proof/Machine/Fetch.lean ====
section
/-! DEFINITION. Fetching and running one command of the frame in progress (spec/43_block_commands.md R140, R141), and
placing one command where the next step fetches it. -/

namespace Sys2Proof.Machine

/-- Run what the decoder answers at `read_pos` (R141). A command that the end of the frame cuts short
raises the truncation of R211. The missing EXT, colour, palette and selector come before every check of the state (R216),
so they are raised at once; where only data bytes are missing, the command's own body finds which block fails, and why. -/
def State.runDecoded (s : State) (f : Frame) (d : Decoded) : Result :=
  match d with
  | .ok (i, _) => exec i s
  | .error .noHeader => .next (s.finishFrame f)
  | .error .noExt => .next (s.raiseError .truncExt)
  | .error .noColour => .next (s.raiseError .truncColor)
  | .error .noPalette => .next (s.raiseError .truncPalette)
  | .error .noSelector => .next (s.raiseError .truncSelector)
  | .error (.noBlockData i) => exec i s

/-- `ExecCommand()` (R141): decode the command at `read_pos` and run it. -/
def State.runCommand (s : State) (f : Frame) : Result := s.runDecoded f (decode (s.unread f))

/-- One turn of DecodePass (R140): a command while `read_pos < L`, then the end of the frame (R163, R192). -/
def State.decodeTurn (s : State) (f : Frame) : Result :=
  if s.readPos < f.input.length then s.runCommand f else .next (s.finishFrame f)

/-- The pixel side of the square instance that `placeCommand` constructs: 16 blocks for a short command, 4096 for a long
one that needs more than 16. -/
def sideFor (count : Nat) : Nat := if count ≤ 16 then 16 else 256

/-- `s` with the command `bytes` as the next thing the pass fetches. With a frame in progress, `IN` from `read_pos` on
becomes `bytes`. With none, a DECODE_FRAME of exactly `bytes` is begun, on an instance that CONSTRUCT has made READY
first, since no command runs on an UNCONFIGURED one (R195). -/
def State.placeCommand (s : State) (bytes : List Byte) (count : Nat) : State :=
  match s.frame with
  | some f =>
    { s with frame := some { f with
        input := f.input.take s.readPos ++ List.replicate (s.readPos - f.input.length) 0 ++ bytes } }
  | none =>
    if s.cfg = .ready then s.beginFrame bytes false
    else (s.configure (sideFor count) (sideFor count)).beginFrame bytes false

/-- The count of the command that a table word begins, by its header byte and the byte after it (R72 to R74). -/
def wordCount (bytes : List Byte) : Nat :=
  headerCount (headerTag (bytes.getD 0 0)) (headerLf (bytes.getD 0 0)) (bytes.getD 1 0)

end Sys2Proof.Machine
end

