-- ==== Sys2Proof/Machine/Step.lean ====
section
/-! DEFINITION. One step of the machine: a turn of the decode pass while a DECODE_FRAME is in progress, else the next
host request (spec/43_block_commands.md R140; spec/45_host_interface.md R190). -/

namespace Sys2Proof.Machine

/-- One step (R140, R190). -/
def step (s : State) : Host.Outcome State Fault Refusal :=
  match s.frame with
  | some f => s.decodeTurn f
  | none => .next s.idle

/-- `s` with the table word `w` of `nbits` bits as the command the very next step fetches (notes/assumptions/3.md). -/
def State.withFetchWord (s : State) (nbits w : Nat) : State :=
  s.placeCommand (tableCommand nbits w) (wordCount (tableBytes nbits w))

end Sys2Proof.Machine
end

