-- ==== Sys2Proof/Safety.lean ====
section
/-! DEFINITION. What counts as a sound state of the core, and the words the statements are written in: what a command
writes, what error entry leaves, and what the debug channel may touch. -/

namespace Sys2Proof

/-- A command of the SKIP family (R145, R146). -/
def Instr.isSkip : Instr → Bool
  | .skip _ | .skipLong _ _ => true
  | _ => false

end Sys2Proof

namespace Sys2Proof.Machine

/-- A size is within its bound; there may be none (R7). -/
abbrev withinBound (size : Nat) (bound : Option Nat) : Prop := exceeds size bound = false

/-- The geometry registers are those CONSTRUCT computes from a positive WIDTH and HEIGHT (R8, R21, R22). -/
abbrev Geometry.Derived (g : Geometry) : Prop := 0 < g.width ∧ 0 < g.height ∧ g = geometryOf g.width g.height

/-- The cache invariants R31(a) and R31(b), and the range R30 gives COUNT_c. -/
abbrev Cache.Sound {c : Nat} (k : Cache c) : Prop :=
  (k.count = 0 ↔ k.head = none) ∧
  (0 < k.count → k.count < 256 → k.head.map Fin.val = some (k.count - 1)) ∧
  k.count ≤ 256

/-- The size of TAGS: `NB` entries where the debug channel exists, none where it does not (R32). -/
def State.tagsSize (s : State) : Nat := if s.params.hasDebug then s.geo.nb else 0

/-- The form of the arrays of a READY instance: BS and LUT have `NB` entries (R28, R29), TAGS has `NB` or none (R32).
Each array is dense, so it is written in one way only, and equal arrays are equal data. -/
def Memory.wf (s : State) : Bool :=
  decide (s.cfg = .ready →
    s.bs.length = s.geo.nb ∧ s.lut.length = s.geo.nb ∧ s.tags.length = s.tagsSize)

/-- What holds of a READY instance between any two steps. -/
structure State.Configured (s : State) : Prop where
  /-- the geometry is what CONSTRUCT computed (R21, R22) -/
  geoDerived : s.geo.Derived
  /-- WIDTH <= MAX_WIDTH (R21) -/
  widthBound : withinBound s.geo.width s.params.maxWidth
  /-- HEIGHT <= MAX_HEIGHT (R21) -/
  heightBound : withinBound s.geo.height s.params.maxHeight
  /-- LUT is the table of the geometry, "immutable thereafter" (R29, R107) -/
  lutBuilt : s.lut = buildLut s.geo
  /-- BS has NB entries (R28) -/
  bsSize : s.bs.length = s.geo.nb
  /-- TAGS has NB entries, or none without the debug channel (R32) -/
  tagsLength : s.tags.length = s.tagsSize
  /-- R31 of CACHE_2 -/
  cache2Sound : s.cache2.Sound
  /-- R31 of CACHE_4 -/
  cache4Sound : s.cache4.Sound
  /-- R31 of CACHE_8 -/
  cache8Sound : s.cache8.Sound
  /-- block_pos is in 0..NB (R25, R142) -/
  blockInside : s.blockPos ≤ s.geo.nb
  /-- STATUS.POS_BLOCK is in 0..NB (R23) -/
  statusInside : s.status.posBlock ≤ s.geo.nb

/-- STATUS records a cause with its own kind, and positions only for success and for the stream errors (R23, R211). -/
abbrev Status.Sound (st : Status) : Prop :=
  st.kind = st.cause.kind ∧
  (st.kind = .noError ∨ st.kind = .truncated ∨ st.kind = .invalidBackref ∨ (st.posRead = 0 ∧ st.posBlock = 0))

/-- The invariant of the core: what every step keeps, from any state that has it. -/
structure State.Inv (s : State) : Prop where
  /-- only a READY instance decodes (R20, R195) -/
  frameReady : s.frame ≠ none → s.cfg = .ready
  /-- a READY instance is configured -/
  configured : s.cfg = .ready → s.Configured
  /-- read_pos is in 0..L (R26) -/
  readInside : ∀ f, s.frame = some f → s.readPos ≤ f.input.length
  /-- no frame longer than MAX_INPUT_BYTES is decoded (R196) -/
  inputBound : ∀ f, s.frame = some f → withinBound f.input.length s.params.maxInputBytes
  /-- STATUS is sound (R23, R24) -/
  statusSound : s.status.Sound

/-- The block writes of a commit, byte by byte: entry `block_pos + j` holds `blocks j` for `j < count`, every byte of
every other entry reads as before, and the size of BS is the same (R141, R59, R167). -/
def BlocksWritten (s t : State) (count : Nat) (blocks : Nat → Block) : Prop :=
  (∀ j, j < count → ∀ k : Fin 16, t.readByte (s.blockPos + j) k = (blocks j)[k.val]) ∧
  (∀ q, q < s.blockPos ∨ s.blockPos + count ≤ q → ∀ k : Fin 16, t.readByte q k = s.readByte q k) ∧
  t.bs.length = s.bs.length

/-- The tag writes of a commit (R144): entry `block_pos + j` holds `tag` for `j < count` and every other entry is as
before, where the debug channel exists; without it TAGS is unchanged. -/
def TagsWritten (s t : State) (tag : Nibble) (count : Nat) : Prop :=
  (s.params.hasDebug = true →
    (∀ j, j < count → t.tags[s.blockPos + j]? = some tag) ∧
    (∀ q, q < s.blockPos ∨ s.blockPos + count ≤ q → t.tags[q]? = s.tags[q]?)) ∧
  (s.params.hasDebug = false → t.tags = s.tags)

/-- What block `j` of the blocks a command covers holds once it has committed: SKIP leaves the block as it is (R145),
REPEAT copies the block before `block_pos` (R147), SOLID and SOLID-SEP fill it with the colour (R149, R151), the palette
commands look the lanes of group `j` up in the literal palette or in the slot (R153, R154), and RAW copies group `j`
(R161). -/
def State.blockAfter (s : State) (i : Instr) (j : Nat) : Block :=
  match i with
  | .skip _ | .skipLong _ _ => s.readBlock (s.blockPos + j)
  | .repeatPrev _ | .repeatPrevLong _ _ => s.readBlock (s.blockPos - 1)
  | .solid _ c | .solidLong _ _ c | .solidSep _ c | .solidSepLong _ _ c => Vector.replicate 16 c
  | .pal2 _ pal data => palBlock2 pal (data.getD j default)
  | .pal2Cache _ slot data => palBlock2 (s.cache2.get slot) (data.getD j default)
  | .pal4 _ pal data => palBlock4 pal (data.getD j default)
  | .pal4Cache _ slot data => palBlock4 (s.cache4.get slot) (data.getD j default)
  | .pal8 _ pal data => palBlock8 pal (data.getD j default)
  | .pal8Cache _ slot data => palBlock8 (s.cache8.get slot) (data.getD j default)
  | .raw _ data | .rawLong _ _ data => data.getD j default

/-- CACHE_2 once a command has committed: PAL2 adds its palette, every other command leaves it (R130, R153, R154). -/
def State.cache2After (s : State) (i : Instr) : Cache 2 :=
  match i with
  | .pal2 _ pal _ => s.cache2.add pal
  | _ => s.cache2

/-- CACHE_4 once a command has committed: PAL4 adds its palette, every other command leaves it (R130, R153, R154). -/
def State.cache4After (s : State) (i : Instr) : Cache 4 :=
  match i with
  | .pal4 _ pal _ => s.cache4.add pal
  | _ => s.cache4

/-- CACHE_8 once a command has committed: PAL8 adds its palette, every other command leaves it (R130, R153, R154). -/
def State.cache8After (s : State) (i : Instr) : Cache 8 :=
  match i with
  | .pal8 _ pal _ => s.cache8.add pal
  | _ => s.cache8

/-- `t` is what error entry with cause `c` leaves of `s` (R212 to R214): the request has ended, STATUS holds the kind, the
cause and the cursors at the start of the failing command, OUT and DBG_OUT are open, and nothing else has changed. -/
def ErrorEntered (s t : State) (c : Cause) : Prop :=
  t = { s with
    frame := none
    status := { kind := c.kind, cause := c, posRead := s.readPos, posBlock := s.blockPos }
    out := t.out
    dbgOut := t.dbgOut
    draws := t.draws }

/-- The causes a command of the stream can raise, 1 to 8 of R211. -/
def Cause.ofStream : Cause → Bool
  | .truncExt | .truncSelector | .truncPalette | .truncColor | .truncBlockdata => true
  | .repeatAtZero | .cacheIndex | .blockOverrun => true
  | _ => false

/-- The checks of a command with data run block by block, `Room(j)` before `Need` (R143, R216 item 5): if every block before
`j` passes both, block `j` outside the store makes `run` end in BLOCK_OVERRUN, and block `j` inside it whose data is
missing (only `avail` groups are there) makes it end in TRUNC_BLOCKDATA. -/
def FailsInOrder (s : State) (count avail : Nat) (run : Result) : Prop :=
  ∀ j, j < count → (∀ i, i < j → s.blockPos + i < s.geo.nb ∧ i < avail) →
    (s.geo.nb ≤ s.blockPos + j → ∃ t, run = .next t ∧ ErrorEntered s t .blockOverrun) ∧
    (s.blockPos + j < s.geo.nb → avail ≤ j → ∃ t, run = .next t ∧ ErrorEntered s t .truncBlockdata)

/-- `LEN` of the command that begins these bytes, by its header and EXT bytes (R76, R79). -/
def commandLenAt (bytes : List Byte) : Nat :=
  commandLen (headerTag (bytes.getD 0 0)) (wordCount bytes)

/-- The bytes of a command before its block data: header, EXT and fixed payload (R76). -/
def headLen (tag : Nibble) : Nat := 1 + (if isLong tag then 1 else 0) + fixedPayload tag

/-- The whole groups of block data behind the head of the command that begins these bytes. -/
def groupsThere (bytes : List Byte) : Nat :=
  (bytes.length - headLen (headerTag (bytes.getD 0 0))) / perBlock (headerTag (bytes.getD 0 0))

/-- The command that begins these bytes is a cache reference to a slot that is not valid (R134, R154). -/
def State.slotRefused (s : State) (bytes : List Byte) : Bool :=
  match (headerTag (bytes.getD 0 0)).toNat with
  | 0x9 => decide (s.cache2.count ≤ (bytes.getD 1 0).toNat)
  | 0xB => decide (s.cache4.count ≤ (bytes.getD 1 0).toNat)
  | 0xD => decide (s.cache8.count ≤ (bytes.getD 1 0).toNat)
  | _ => false

/-- The cause of a fixed payload that ends too early, by the tag (R211 causes 2 to 4). A tag without a fixed payload has
none; the EXT byte of RAW-long and of the others is asked for before. -/
def fixedCause (tag : Nibble) : Cause :=
  match tag.toNat with
  | 0x4 | 0x5 | 0x6 | 0x7 => .truncColor
  | 0x8 | 0xA | 0xC => .truncPalette
  | 0x9 | 0xB | 0xD => .truncSelector
  | _ => .truncExt

/-- The one cause that R216 gives the command that begins these bytes, when they end before the command does: EXT first
(item 1; REPEAT has no bytes to miss after it), then the fixed payload (item 3), then the slot (item 4), and then block
after block its range before its data (item 5). The first block without data is number `groupsThere`; if the store ends
no later than there, a block's range fails first. -/
def State.truncatedCause (s : State) (bytes : List Byte) : Cause :=
  if isLong (headerTag (bytes.getD 0 0)) ∧ bytes.length < 2 then .truncExt
  else if bytes.length < headLen (headerTag (bytes.getD 0 0)) then fixedCause (headerTag (bytes.getD 0 0))
  else if s.slotRefused bytes then .cacheIndex
  else if s.blockPos + groupsThere bytes < s.geo.nb then .truncBlockdata
  else .blockOverrun

/-- A request without its debug flag. -/
def Request.eraseDebug : Request → Request
  | .decodeFrame input _ => .decodeFrame input false
  | r => r

/-- A state without everything the debug channel is: whether it exists, TAGS, DBG_OUT and the debug flags (R32, R182). -/
def State.eraseDebug (s : State) : State :=
  { s with
    params := { s.params with hasDebug := false }
    tags := []
    dbgOut := []
    frame := s.frame.map fun f => { f with debug := false }
    requests := s.requests.map Request.eraseDebug }

end Sys2Proof.Machine
end

