-- ==== Sys2Proof/Certificates/Slice0/Obligations.lean ====
section
/-! DEFINITION. The statements for the provers. Each docstring names the rules of spec/ it formalises. -/

open Sys2Proof Sys2Proof.Machine

/-! ### Encoding -/

/-- R70 to R76: the decoder reads every well-formed command back from its bytes, whatever follows them. -/
def Obligations.DecodeOfEncodeGivesTheCommand : Prop :=
  ∀ (i : Instr) (rest : List Byte), i.wf = true → decode (encode i ++ rest) = .ok (i, rest)

/-- R52, R75, R76: what the decoder accepts is well formed, and the bytes it took are that command's encoding. -/
def Obligations.DecodedBytesAreTheEncoding : Prop :=
  ∀ (bytes rest : List Byte) (i : Instr), decode bytes = .ok (i, rest) →
    i.wf = true ∧ bytes = encode i ++ rest

/-- R76: a well-formed command takes `LEN` bytes, and its first byte is its tag and its length field. -/
def Obligations.EncodedLengthIsLen : Prop :=
  ∀ i : Instr, i.wf = true →
    (encode i).length = 1 + (if isLong i.tag then 1 else 0) + fixedPayload i.tag + i.count * perBlock i.tag ∧
    (encode i).head?.map headerTag = some i.tag

/-- R63(a), R142, R211: the decoder refuses exactly the bytes that end before the command they begin. -/
def Obligations.DecodeFailsExactlyOnMissingBytes : Prop :=
  ∀ bytes : List Byte, (∃ e, decode bytes = .error e) ↔ bytes.length < commandLenAt bytes

/-- R78: no header byte is illegal: with enough bytes behind it, every header decodes, to a command of its own tag. -/
def Obligations.EveryHeaderByteIsLegal : Prop :=
  ∀ (h : Byte) (p : List Byte), 65537 ≤ p.length →
    ∃ (i : Instr) (rest : List Byte), decode (h :: p) = .ok (i, rest) ∧ i.tag = headerTag h

/-- Eight byte strings of spec/95_test_vectors.md sections 2.4 and 2.5 and of its program P1 (`90 00 FF 00`, also the
example of R156) decode to the commands they stand for, with the counts 4096 and 2621 of `1F FF` and `3A 3C`. -/
def Obligations.SpecWordsDecode : Prop :=
  decode [0x0F#8] = .ok (.skip 15#4, []) ∧
  decode [0x1F#8, 0xFF#8] = .ok (.skipLong 15#4 255#8, []) ∧
  longCount 15#4 255#8 = 4096 ∧
  decode [0x3A#8, 0x3C#8] = .ok (.repeatPrevLong 10#4 0x3C#8, []) ∧
  longCount 10#4 0x3C#8 = 2621 ∧
  decode [0x40#8, 0x07#8] = .ok (.solid 0#4 7#8, []) ∧
  decode [0x70#8, 0x01#8, 0x5A#8] = .ok (.solidSepLong 0#4 1#8 0x5A#8, []) ∧
  decode [0xA0#8, 0x01#8, 0x02#8, 0x03#8, 0x04#8, 0x1B#8, 0x1B#8, 0x1B#8, 0x1B#8] =
    .ok (.pal4 0#4 #v[1#8, 2#8, 3#8, 4#8] [#v[0x1B#8, 0x1B#8, 0x1B#8, 0x1B#8]], []) ∧
  decode [0x80#8, 0x10#8, 0x20#8, 0xA5#8, 0x0F#8] = .ok (.pal2 0#4 #v[0x10#8, 0x20#8] [#v[0xA5#8, 0x0F#8]], []) ∧
  decode [0x90#8, 0x00#8, 0xFF#8, 0x00#8] = .ok (.pal2Cache 0#4 0#8 [#v[0xFF#8, 0x00#8]], [])

/-! ### Bit unpackers -/

/-- R120: lane `k` of `Unpack_w` is `S[16w-1-wk : 16w-w-wk]` of the packed bytes, for `w` = 1, 2, 3. -/
def Obligations.UnpackersSliceThePackedStream : Prop :=
  (∀ (b : Vector Byte 2) (k : Fin 16),
    (unpack1 b)[k.val] = (packedStream b).extractLsb' (16 * 1 - 1 - 1 * k.val) 1) ∧
  (∀ (b : Vector Byte 4) (k : Fin 16),
    (unpack2 b)[k.val] = (packedStream b).extractLsb' (16 * 2 - 2 - 2 * k.val) 2) ∧
  (∀ (b : Vector Byte 6) (k : Fin 16),
    (unpack3 b)[k.val] = (packedStream b).extractLsb' (16 * 3 - 3 - 3 * k.val) 3)

/-- R126: unpacking what was packed gives the lanes back, and packing what was unpacked gives the bytes back. -/
def Obligations.PackAndUnpackAreInverse : Prop :=
  (∀ v : Vector (BitVec 1) 16, unpack1 (pack1 v) = v) ∧
  (∀ v : Vector (BitVec 2) 16, unpack2 (pack2 v) = v) ∧
  (∀ v : Vector (BitVec 3) 16, unpack3 (pack3 v) = v) ∧
  (∀ b : Vector Byte 2, pack1 (unpack1 b) = b) ∧
  (∀ b : Vector Byte 4, pack2 (unpack2 b) = b) ∧
  (∀ b : Vector Byte 6, pack3 (unpack3 b) = b)

/-- R124: the four lanes that straddle two bytes, 2, 5, 10 and 13, are the bitwise OR of two disjoint fields: the low bits
of the earlier byte, shifted up, and the high bits of the next. -/
def Obligations.StraddlingLanesAreOrs : Prop :=
  ∀ b : Vector Byte 6,
    let high1 (x : Byte) : BitVec 3 := (x.extractLsb' 0 2).setWidth 3 <<< 1
    let high2 (x : Byte) : BitVec 3 := (x.extractLsb' 0 1).setWidth 3 <<< 2
    let low1 (x : Byte) : BitVec 3 := (x.extractLsb' 7 1).setWidth 3
    let low2 (x : Byte) : BitVec 3 := (x.extractLsb' 6 2).setWidth 3
    ((unpack3 b)[2] = high1 b[0] ||| low1 b[1] ∧ high1 b[0] &&& low1 b[1] = 0) ∧
    ((unpack3 b)[5] = high2 b[1] ||| low2 b[2] ∧ high2 b[1] &&& low2 b[2] = 0) ∧
    ((unpack3 b)[10] = high1 b[3] ||| low1 b[4] ∧ high1 b[3] &&& low1 b[4] = 0) ∧
    ((unpack3 b)[13] = high2 b[4] ||| low2 b[5] ∧ high2 b[4] &&& low2 b[5] = 0)

/-- R125: byte `k` of a palette block is `PAL[v[k]]`, and the lookup is always in range. -/
def Obligations.PaletteBlocksLookUpEachLane : Prop :=
  (∀ (pal : Palette 2) (b : Vector Byte 2) (k : Fin 16),
    pal[((unpack1 b)[k.val]).toNat]? = some ((palBlock2 pal b)[k.val])) ∧
  (∀ (pal : Palette 4) (b : Vector Byte 4) (k : Fin 16),
    pal[((unpack2 b)[k.val]).toNat]? = some ((palBlock4 pal b)[k.val])) ∧
  (∀ (pal : Palette 8) (b : Vector Byte 6) (k : Fin 16),
    pal[((unpack3 b)[k.val]).toNat]? = some ((palBlock8 pal b)[k.val]))

/-! ### Palette caches -/

/-- R133: where an add goes, what it writes there, that it writes no other slot, and the count. -/
def Obligations.CacheAddWritesTheNextSlot : Prop :=
  ∀ (c : Nat) (k : Cache c) (pal : Palette c),
    (k.head = none → (k.add pal).head = some 0) ∧
    (∀ h : Fin 256, k.head = some h → ((k.add pal).head.map Fin.val) = some ((h.val + 1) % 256)) ∧
    (∀ g : Fin 256, (k.add pal).head = some g →
      (k.add pal).slots[g.val] = pal ∧ ∀ i : Fin 256, i ≠ g → (k.add pal).slots[i.val] = k.slots[i.val]) ∧
    (k.add pal).count = min (k.count + 1) 256

/-- R135: after the adds of one epoch, the count, the head, and which add each valid slot holds. -/
def Obligations.SlotsHoldTheLatestAdds : Prop :=
  ∀ (c : Nat) (k : Cache c) (pals : List (Palette c)),
    (pals.foldl Cache.add k.reset).count = min pals.length 256 ∧
    (pals ≠ [] → (pals.foldl Cache.add k.reset).head.map Fin.val = some ((pals.length - 1) % 256)) ∧
    (∀ i : Fin 256, i.val < (pals.foldl Cache.add k.reset).count →
      ∃ j, j < pals.length ∧ j % 256 = i.val ∧
        (∀ j', j' < pals.length → j' % 256 = i.val → j' ≤ j) ∧
        pals[j]? = some (pals.foldl Cache.add k.reset).slots[i.val]) ∧
    (pals ≠ [] → ∃ i : Fin 256, i.val = (pals.length - 256) % 256 ∧
      pals[pals.length - 256]? = some (pals.foldl Cache.add k.reset).slots[i.val])

/-- R31(a), R31(b), with the range R30 gives COUNT_c: a reset makes a cache sound, and every add keeps it sound. -/
def Obligations.CacheStaysSound : Prop :=
  ∀ (c : Nat) (k : Cache c), k.reset.Sound ∧ ∀ pal : Palette c, k.Sound → (k.add pal).Sound

/-- R130: a command changes a cache only if it is the literal palette command of that cache, and then by one add. -/
def Obligations.CachesChangeOnlyByTheirLiteral : Prop :=
  ∀ (i : Instr) (s t : State), exec i s = .next t →
    (t.cache2 ≠ s.cache2 → ∃ lf pal data, i = .pal2 lf pal data ∧ t.cache2 = s.cache2.add pal) ∧
    (t.cache4 ≠ s.cache4 → ∃ lf pal data, i = .pal4 lf pal data ∧ t.cache4 = s.cache4.add pal) ∧
    (t.cache8 ≠ s.cache8 → ∃ lf pal data, i = .pal8 lf pal data ∧ t.cache8 = s.cache8.add pal)

/-! ### Curve Builder -/

/-- R8, R100: the geometry registers of a positive WIDTH and HEIGHT. -/
def Obligations.GeometryIsDerived : Prop :=
  ∀ (w h : Nat), 0 < w → 0 < h →
    let g := geometryOf w h
    g.width = w ∧ g.height = h ∧
    (w ≤ 4 * g.bw ∧ 4 * g.bw < w + 4) ∧ (h ≤ 4 * g.bh ∧ 4 * g.bh < h + 4) ∧ g.nb = g.bw * g.bh ∧
    (∃ k, g.n = 2 ^ k ∧ max g.bw g.bh ≤ 2 ^ k ∧ ∀ j, max g.bw g.bh ≤ 2 ^ j → k ≤ j) ∧
    g.ox = (g.n - g.bw) / 2 ∧ g.oy = (g.n - g.bh) / 2 ∧
    (g.bw = 1 → g.bh = 1 → g.n = 1)

/-- R105 (which the spec gives from general knowledge): HilbertXY is a bijection from `0..N*N-1` onto the square. -/
def Obligations.HilbertIndexIsABijection : Prop :=
  ∀ k : Nat,
    (∀ t, t < 2 ^ k * 2 ^ k → (hilbertXY (2 ^ k) t).1 < 2 ^ k ∧ (hilbertXY (2 ^ k) t).2 < 2 ^ k) ∧
    (∀ t u, t < 2 ^ k * 2 ^ k → u < 2 ^ k * 2 ^ k → hilbertXY (2 ^ k) t = hilbertXY (2 ^ k) u → t = u) ∧
    (∀ x y, x < 2 ^ k → y < 2 ^ k → ∃ t, t < 2 ^ k * 2 ^ k ∧ hilbertXY (2 ^ k) t = (x, y))

/-- R106: the curve table of every geometry is a permutation of `0..NB-1`. -/
def Obligations.CurveTableIsAPermutation : Prop :=
  ∀ (w h : Nat), 0 < w → 0 < h →
    (buildLut (geometryOf w h)).Perm (List.range (geometryOf w h).nb)

/-- R104: the table numbers the grid's cells in the order in which the curve meets them. -/
def Obligations.CurveTableFollowsTheCurve : Prop :=
  ∀ (w h t u : Nat), 0 < w → 0 < h →
    let g := geometryOf w h
    t < u → u < g.n * g.n → g.inside (hilbertXY g.n t) = true → g.inside (hilbertXY g.n u) = true →
    ∃ a b, (buildLut g)[g.rasterOf (hilbertXY g.n t)]? = some a ∧
      (buildLut g)[g.rasterOf (hilbertXY g.n u)]? = some b ∧ a < b

/-- R110: the worked example of a 3 x 2 block grid, pixels 9..12 x 5..8. -/
def Obligations.CurveTableWorkedExample : Prop :=
  ∀ w ∈ [9, 10, 11, 12], ∀ h ∈ [5, 6, 7, 8],
    let g := geometryOf w h
    g.bw = 3 ∧ g.bh = 2 ∧ g.n = 4 ∧ g.ox = 0 ∧ g.oy = 1 ∧
    (List.range 16).map (hilbertXY 4) =
      [(0,0), (1,0), (1,1), (0,1), (0,2), (0,3), (1,3), (1,2), (2,2), (2,3), (3,3), (3,2), (3,1), (2,1), (2,0), (3,0)] ∧
    ((List.range 16).map (hilbertXY 4)).filter g.inside = [(1,1), (0,1), (0,2), (1,2), (2,2), (2,1)] ∧
    [(1,1), (0,1), (0,2), (1,2), (2,2), (2,1)].map (fun p => (p.1 - g.ox, p.2 - g.oy)) =
      [(1,0), (0,0), (0,1), (1,1), (2,1), (2,0)] ∧
    buildLut g = [1, 0, 5, 2, 3, 4]

/-! ### What each command does when it completes: its writes, its cursors, and that nothing else changes -/

/-- R145, R146: SKIP and SKIP-long leave every byte of BS, and move the cursors past the blocks and the command. -/
def Obligations.SkipCompletes : Prop :=
  ∀ (s : State) (lf : Nibble) (ext : Byte), s.Configured →
    (s.blockPos + (lf.toNat + 1) ≤ s.geo.nb →
      ∃ t, exec (.skip lf) s = .next t ∧ TagsWritten s t 0x0#4 (lf.toNat + 1) ∧
        (∀ q k, t.readByte q k = s.readByte q k) ∧
        t = { s with tags := t.tags, readPos := s.readPos + 1, blockPos := s.blockPos + (lf.toNat + 1) }) ∧
    (s.blockPos + (256 * lf.toNat + ext.toNat + 1) ≤ s.geo.nb →
      ∃ t, exec (.skipLong lf ext) s = .next t ∧ TagsWritten s t 0x1#4 (256 * lf.toNat + ext.toNat + 1) ∧
        (∀ q k, t.readByte q k = s.readByte q k) ∧
        t = { s with
          tags := t.tags
          readPos := s.readPos + 2
          blockPos := s.blockPos + (256 * lf.toNat + ext.toNat + 1) })

/-- R147, R148: REPEAT and REPEAT-long fill the next blocks with the block before `block_pos`. -/
def Obligations.RepeatCompletes : Prop :=
  ∀ (s : State) (lf : Nibble) (ext : Byte), s.Configured → 0 < s.blockPos →
    (s.blockPos + (lf.toNat + 1) ≤ s.geo.nb →
      ∃ t, exec (.repeatPrev lf) s = .next t ∧ TagsWritten s t 0x2#4 (lf.toNat + 1) ∧
        BlocksWritten s t (lf.toNat + 1) (fun _ => s.readBlock (s.blockPos - 1)) ∧
        t = { s with
          bs := t.bs
          tags := t.tags
          readPos := s.readPos + 1
          blockPos := s.blockPos + (lf.toNat + 1) }) ∧
    (s.blockPos + (256 * lf.toNat + ext.toNat + 1) ≤ s.geo.nb →
      ∃ t, exec (.repeatPrevLong lf ext) s = .next t ∧ TagsWritten s t 0x3#4 (256 * lf.toNat + ext.toNat + 1) ∧
        BlocksWritten s t (256 * lf.toNat + ext.toNat + 1) (fun _ => s.readBlock (s.blockPos - 1)) ∧
        t = { s with
          bs := t.bs
          tags := t.tags
          readPos := s.readPos + 2
          blockPos := s.blockPos + (256 * lf.toNat + ext.toNat + 1) })

/-- R149, R151: SOLID and SOLID-SEP set every byte of each covered block to the colour, and differ in their tag. -/
def Obligations.SolidShortCompletes : Prop :=
  ∀ (s : State) (lf : Nibble) (c : Byte), s.Configured → s.blockPos + (lf.toNat + 1) ≤ s.geo.nb →
    (∃ t, exec (.solid lf c) s = .next t ∧ TagsWritten s t 0x4#4 (lf.toNat + 1) ∧
      BlocksWritten s t (lf.toNat + 1) (fun _ => Vector.replicate 16 c) ∧
      t = { s with
        bs := t.bs
        tags := t.tags
        readPos := s.readPos + 2
        blockPos := s.blockPos + (lf.toNat + 1) }) ∧
    (∃ t, exec (.solidSep lf c) s = .next t ∧ TagsWritten s t 0x6#4 (lf.toNat + 1) ∧
      BlocksWritten s t (lf.toNat + 1) (fun _ => Vector.replicate 16 c) ∧
      t = { s with
        bs := t.bs
        tags := t.tags
        readPos := s.readPos + 2
        blockPos := s.blockPos + (lf.toNat + 1) })

/-- R150, R152: SOLID-long and SOLID-SEP-long do the same over a 12-bit count, and take three bytes. -/
def Obligations.SolidLongCompletes : Prop :=
  ∀ (s : State) (lf : Nibble) (ext c : Byte), s.Configured →
    s.blockPos + (256 * lf.toNat + ext.toNat + 1) ≤ s.geo.nb →
    (∃ t, exec (.solidLong lf ext c) s = .next t ∧ TagsWritten s t 0x5#4 (256 * lf.toNat + ext.toNat + 1) ∧
      BlocksWritten s t (256 * lf.toNat + ext.toNat + 1) (fun _ => Vector.replicate 16 c) ∧
      t = { s with
        bs := t.bs
        tags := t.tags
        readPos := s.readPos + 3
        blockPos := s.blockPos + (256 * lf.toNat + ext.toNat + 1) }) ∧
    (∃ t, exec (.solidSepLong lf ext c) s = .next t ∧ TagsWritten s t 0x7#4 (256 * lf.toNat + ext.toNat + 1) ∧
      BlocksWritten s t (256 * lf.toNat + ext.toNat + 1) (fun _ => Vector.replicate 16 c) ∧
      t = { s with
        bs := t.bs
        tags := t.tags
        readPos := s.readPos + 3
        blockPos := s.blockPos + (256 * lf.toNat + ext.toNat + 1) })

/-- R151: SOLID-SEP and SOLID-SEP-long leave what SOLID and SOLID-long leave, but for TAGS, errors included. -/
def Obligations.SolidSepDiffersOnlyInTags : Prop :=
  ∀ (s : State) (lf : Nibble) (ext c : Byte),
    (∃ t u, exec (.solid lf c) s = .next t ∧ exec (.solidSep lf c) s = .next u ∧ u = { t with tags := u.tags }) ∧
    (∃ t u, exec (.solidLong lf ext c) s = .next t ∧ exec (.solidSepLong lf ext c) s = .next u ∧
      u = { t with tags := u.tags })

/-- R153, R155: PAL2 writes the block of each group through its palette, and adds the palette to CACHE_2. -/
def Obligations.Pal2Completes : Prop :=
  ∀ (s : State) (lf : Nibble) (pal : Palette 2) (data : List (Vector Byte 2)), s.Configured →
    data.length = lf.toNat + 1 → s.blockPos + (lf.toNat + 1) ≤ s.geo.nb →
    ∃ t, exec (.pal2 lf pal data) s = .next t ∧ TagsWritten s t 0x8#4 (lf.toNat + 1) ∧
      BlocksWritten s t (lf.toNat + 1) (fun j => palBlock2 pal (data.getD j default)) ∧
      t = { s with
        bs := t.bs
        tags := t.tags
        cache2 := s.cache2.add pal
        readPos := s.readPos + (3 + 2 * (lf.toNat + 1))
        blockPos := s.blockPos + (lf.toNat + 1) }

/-- R154, R156: PAL2-cache does the same through the palette in the slot, and leaves CACHE_2 as it is. -/
def Obligations.Pal2CacheCompletes : Prop :=
  ∀ (s : State) (lf : Nibble) (slot : Fin 256) (data : List (Vector Byte 2)), s.Configured →
    slot.val < s.cache2.count → data.length = lf.toNat + 1 → s.blockPos + (lf.toNat + 1) ≤ s.geo.nb →
    ∃ t, exec (.pal2Cache lf (BitVec.ofFin slot) data) s = .next t ∧ TagsWritten s t 0x9#4 (lf.toNat + 1) ∧
      BlocksWritten s t (lf.toNat + 1) (fun j => palBlock2 s.cache2.slots[slot.val] (data.getD j default)) ∧
      t = { s with
        bs := t.bs
        tags := t.tags
        readPos := s.readPos + (2 + 2 * (lf.toNat + 1))
        blockPos := s.blockPos + (lf.toNat + 1) }

/-- R153, R157: PAL4 writes the block of each group through its palette, and adds the palette to CACHE_4. -/
def Obligations.Pal4Completes : Prop :=
  ∀ (s : State) (lf : Nibble) (pal : Palette 4) (data : List (Vector Byte 4)), s.Configured →
    data.length = lf.toNat + 1 → s.blockPos + (lf.toNat + 1) ≤ s.geo.nb →
    ∃ t, exec (.pal4 lf pal data) s = .next t ∧ TagsWritten s t 0xA#4 (lf.toNat + 1) ∧
      BlocksWritten s t (lf.toNat + 1) (fun j => palBlock4 pal (data.getD j default)) ∧
      t = { s with
        bs := t.bs
        tags := t.tags
        cache4 := s.cache4.add pal
        readPos := s.readPos + (5 + 4 * (lf.toNat + 1))
        blockPos := s.blockPos + (lf.toNat + 1) }

/-- R154, R158: PAL4-cache does the same through the palette in the slot, and leaves CACHE_4 as it is. -/
def Obligations.Pal4CacheCompletes : Prop :=
  ∀ (s : State) (lf : Nibble) (slot : Fin 256) (data : List (Vector Byte 4)), s.Configured →
    slot.val < s.cache4.count → data.length = lf.toNat + 1 → s.blockPos + (lf.toNat + 1) ≤ s.geo.nb →
    ∃ t, exec (.pal4Cache lf (BitVec.ofFin slot) data) s = .next t ∧ TagsWritten s t 0xB#4 (lf.toNat + 1) ∧
      BlocksWritten s t (lf.toNat + 1) (fun j => palBlock4 s.cache4.slots[slot.val] (data.getD j default)) ∧
      t = { s with
        bs := t.bs
        tags := t.tags
        readPos := s.readPos + (2 + 4 * (lf.toNat + 1))
        blockPos := s.blockPos + (lf.toNat + 1) }

/-- R153, R159: PAL8 writes the block of each group through its palette, and adds the palette to CACHE_8. -/
def Obligations.Pal8Completes : Prop :=
  ∀ (s : State) (lf : Nibble) (pal : Palette 8) (data : List (Vector Byte 6)), s.Configured →
    data.length = lf.toNat + 1 → s.blockPos + (lf.toNat + 1) ≤ s.geo.nb →
    ∃ t, exec (.pal8 lf pal data) s = .next t ∧ TagsWritten s t 0xC#4 (lf.toNat + 1) ∧
      BlocksWritten s t (lf.toNat + 1) (fun j => palBlock8 pal (data.getD j default)) ∧
      t = { s with
        bs := t.bs
        tags := t.tags
        cache8 := s.cache8.add pal
        readPos := s.readPos + (9 + 6 * (lf.toNat + 1))
        blockPos := s.blockPos + (lf.toNat + 1) }

/-- R154, R160: PAL8-cache does the same through the palette in the slot, and leaves CACHE_8 as it is. -/
def Obligations.Pal8CacheCompletes : Prop :=
  ∀ (s : State) (lf : Nibble) (slot : Fin 256) (data : List (Vector Byte 6)), s.Configured →
    slot.val < s.cache8.count → data.length = lf.toNat + 1 → s.blockPos + (lf.toNat + 1) ≤ s.geo.nb →
    ∃ t, exec (.pal8Cache lf (BitVec.ofFin slot) data) s = .next t ∧ TagsWritten s t 0xD#4 (lf.toNat + 1) ∧
      BlocksWritten s t (lf.toNat + 1) (fun j => palBlock8 s.cache8.slots[slot.val] (data.getD j default)) ∧
      t = { s with
        bs := t.bs
        tags := t.tags
        readPos := s.readPos + (2 + 6 * (lf.toNat + 1))
        blockPos := s.blockPos + (lf.toNat + 1) }

/-- R161, R162: RAW and RAW-long write payload byte `i` of each group to byte `i` of its block. -/
def Obligations.RawCompletes : Prop :=
  ∀ (s : State) (lf : Nibble) (ext : Byte) (data : List Block), s.Configured →
    (data.length = lf.toNat + 1 → s.blockPos + (lf.toNat + 1) ≤ s.geo.nb →
      ∃ t, exec (.raw lf data) s = .next t ∧ TagsWritten s t 0xE#4 (lf.toNat + 1) ∧
        BlocksWritten s t (lf.toNat + 1) (fun j => data.getD j default) ∧
        t = { s with
          bs := t.bs
          tags := t.tags
          readPos := s.readPos + (1 + 16 * (lf.toNat + 1))
          blockPos := s.blockPos + (lf.toNat + 1) }) ∧
    (data.length = 256 * lf.toNat + ext.toNat + 1 → s.blockPos + (256 * lf.toNat + ext.toNat + 1) ≤ s.geo.nb →
      ∃ t, exec (.rawLong lf ext data) s = .next t ∧ TagsWritten s t 0xF#4 (256 * lf.toNat + ext.toNat + 1) ∧
        BlocksWritten s t (256 * lf.toNat + ext.toNat + 1) (fun j => data.getD j default) ∧
        t = { s with
          bs := t.bs
          tags := t.tags
          readPos := s.readPos + (2 + 16 * (256 * lf.toNat + ext.toNat + 1))
          blockPos := s.blockPos + (256 * lf.toNat + ext.toNat + 1) })

/-! ### Errors of the commands -/

/-- R142, R145 to R152: a SKIP, REPEAT or SOLID command whose range runs past `NB` raises BLOCK_OVERRUN. -/
def Obligations.RangePastTheStoreRaises : Prop :=
  ∀ (s : State) (lf : Nibble) (ext c : Byte),
    (s.geo.nb < s.blockPos + (lf.toNat + 1) →
      (∃ t, exec (.skip lf) s = .next t ∧ ErrorEntered s t .blockOverrun) ∧
      (0 < s.blockPos → ∃ t, exec (.repeatPrev lf) s = .next t ∧ ErrorEntered s t .blockOverrun) ∧
      (∃ t, exec (.solid lf c) s = .next t ∧ ErrorEntered s t .blockOverrun) ∧
      (∃ t, exec (.solidSep lf c) s = .next t ∧ ErrorEntered s t .blockOverrun)) ∧
    (s.geo.nb < s.blockPos + (256 * lf.toNat + ext.toNat + 1) →
      (∃ t, exec (.skipLong lf ext) s = .next t ∧ ErrorEntered s t .blockOverrun) ∧
      (0 < s.blockPos → ∃ t, exec (.repeatPrevLong lf ext) s = .next t ∧ ErrorEntered s t .blockOverrun) ∧
      (∃ t, exec (.solidLong lf ext c) s = .next t ∧ ErrorEntered s t .blockOverrun) ∧
      (∃ t, exec (.solidSepLong lf ext c) s = .next t ∧ ErrorEntered s t .blockOverrun))

/-- R147, R148, R216 item 2: REPEAT at position 0 raises REPEAT_AT_ZERO, whatever its count and the size of the store. -/
def Obligations.RepeatAtZeroRaises : Prop :=
  ∀ (s : State) (lf : Nibble) (ext : Byte), s.blockPos = 0 →
    (∃ t, exec (.repeatPrev lf) s = .next t ∧ ErrorEntered s t .repeatAtZero) ∧
    (∃ t, exec (.repeatPrevLong lf ext) s = .next t ∧ ErrorEntered s t .repeatAtZero)

/-- R134, R154, R216 item 4: a slot index at or past COUNT_c raises CACHE_INDEX, before any block is checked. -/
def Obligations.InvalidSlotRaises : Prop :=
  ∀ (s : State) (lf : Nibble) (slot : Byte),
    (∀ data, s.cache2.count ≤ slot.toNat →
      ∃ t, exec (.pal2Cache lf slot data) s = .next t ∧ ErrorEntered s t .cacheIndex) ∧
    (∀ data, s.cache4.count ≤ slot.toNat →
      ∃ t, exec (.pal4Cache lf slot data) s = .next t ∧ ErrorEntered s t .cacheIndex) ∧
    (∀ data, s.cache8.count ≤ slot.toNat →
      ∃ t, exec (.pal8Cache lf slot data) s = .next t ∧ ErrorEntered s t .cacheIndex)

/-- R143, R216 item 5: the commands with data report their first failing block, its range before its data. So says
`exec` of every term, and so does a STEP at the bytes of such a command whose head is there and whose slot is valid, with
the whole groups that the frame still holds: complete, or cut short by the end of the frame. -/
def Obligations.DataCommandsFailInOrder : Prop :=
  ∀ (s : State) (lf : Nibble) (ext slot : Byte),
    (∀ pal data, FailsInOrder s (lf.toNat + 1) data.length (exec (.pal2 lf pal data) s)) ∧
    (∀ pal data, FailsInOrder s (lf.toNat + 1) data.length (exec (.pal4 lf pal data) s)) ∧
    (∀ pal data, FailsInOrder s (lf.toNat + 1) data.length (exec (.pal8 lf pal data) s)) ∧
    (∀ data, slot.toNat < s.cache2.count →
      FailsInOrder s (lf.toNat + 1) data.length (exec (.pal2Cache lf slot data) s)) ∧
    (∀ data, slot.toNat < s.cache4.count →
      FailsInOrder s (lf.toNat + 1) data.length (exec (.pal4Cache lf slot data) s)) ∧
    (∀ data, slot.toNat < s.cache8.count →
      FailsInOrder s (lf.toNat + 1) data.length (exec (.pal8Cache lf slot data) s)) ∧
    (∀ data, FailsInOrder s (lf.toNat + 1) data.length (exec (.raw lf data) s)) ∧
    (∀ data, FailsInOrder s (256 * lf.toNat + ext.toNat + 1) data.length (exec (.rawLong lf ext data) s)) ∧
    (∀ f : Frame, s.frame = some f →
      let bytes := f.input.drop s.readPos
      0 < perBlock (headerTag (bytes.getD 0 0)) → headLen (headerTag (bytes.getD 0 0)) ≤ bytes.length →
      s.slotRefused bytes = false → FailsInOrder s (wordCount bytes) (groupsThere bytes) (step s))

/-- R60, R141, R144, R212, R213: every command either commits or enters an error of the stream. If it commits, all its
writes are made and no others: the cache add of a literal palette, both cursors, and, in a configured state, each covered
block and each covered tag. If it enters an error, nothing of it is written. -/
def Obligations.CommandsCommitWholeOrNotAtAll : Prop :=
  ∀ (i : Instr) (s : State), ∃ t, exec i s = .next t ∧
    ((s.blockPos + i.count ≤ s.geo.nb ∧
      (s.Configured → BlocksWritten s t i.count (s.blockAfter i) ∧ TagsWritten s t i.tag i.count) ∧
      (∀ q k, q < s.blockPos ∨ s.blockPos + i.count ≤ q → t.readByte q k = s.readByte q k) ∧
      (∀ q, q < s.blockPos ∨ s.blockPos + i.count ≤ q → t.tags[q]? = s.tags[q]?) ∧
      t = { s with
        bs := t.bs
        tags := t.tags
        cache2 := s.cache2After i
        cache4 := s.cache4After i
        cache8 := s.cache8After i
        readPos := s.readPos + commandLen i.tag i.count
        blockPos := s.blockPos + i.count }) ∨
      ∃ c, c.ofStream = true ∧ ErrorEntered s t c)

/-! ### The pass -/

/-- R140, R141: when the bytes at `read_pos` decode to a command, the step is exactly that command's meaning. -/
def Obligations.StepRunsTheDecodedCommand : Prop :=
  ∀ (s : State) (f : Frame) (i : Instr) (rest : List Byte), s.frame = some f →
    decode (f.input.drop s.readPos) = .ok (i, rest) → step s = exec i s

/-- R74, R149, R153, R154, R211 causes 1 to 4: what is raised when the EXT, colour, selector or palette bytes are missing. -/
def Obligations.MissingFixedBytesRaise : Prop :=
  ∀ (s : State) (f : Frame) (h : Byte) (p : List Byte), s.frame = some f → f.input.drop s.readPos = h :: p →
    (isLong (headerTag h) = true → p = [] → ∃ t, step s = .next t ∧ ErrorEntered s t .truncExt) ∧
    (headerTag h = 0x4#4 ∨ headerTag h = 0x6#4 → p = [] →
      ∃ t, step s = .next t ∧ ErrorEntered s t .truncColor) ∧
    (headerTag h = 0x5#4 ∨ headerTag h = 0x7#4 → p.length = 1 →
      ∃ t, step s = .next t ∧ ErrorEntered s t .truncColor) ∧
    (headerTag h = 0x9#4 ∨ headerTag h = 0xB#4 ∨ headerTag h = 0xD#4 → p = [] →
      ∃ t, step s = .next t ∧ ErrorEntered s t .truncSelector) ∧
    (headerTag h = 0x8#4 → p.length < 2 → ∃ t, step s = .next t ∧ ErrorEntered s t .truncPalette) ∧
    (headerTag h = 0xA#4 → p.length < 4 → ∃ t, step s = .next t ∧ ErrorEntered s t .truncPalette) ∧
    (headerTag h = 0xC#4 → p.length < 8 → ∃ t, step s = .next t ∧ ErrorEntered s t .truncPalette)

/-- R63(a), R142, R211, R212, R216: a command whose bytes run past `L` never commits: the step enters an error of the
stream, with the one cause that the order of R216 gives it (`State.truncatedCause`): TRUNC_EXT, the truncation of its
fixed payload, CACHE_INDEX, or block by block BLOCK_OVERRUN or TRUNC_BLOCKDATA. -/
def Obligations.TruncatedCommandNeverCommits : Prop :=
  ∀ (s : State) (f : Frame), s.frame = some f → s.readPos < f.input.length →
    (f.input.drop s.readPos).length < commandLenAt (f.input.drop s.readPos) →
    ∃ t, step s = .next t ∧ (s.truncatedCause (f.input.drop s.readPos)).ofStream = true ∧
      ErrorEntered s t (s.truncatedCause (f.input.drop s.readPos))

/-- R163, R180, R192: at `read_pos = L` the pass ends, OUT holds every pixel of its block, and STATUS is
`(0, 0, L, block_pos)`. -/
def Obligations.FrameEndsWithAssembly : Prop :=
  ∀ (s : State) (f : Frame), s.Configured → s.frame = some f → s.readPos = f.input.length →
    ∃ t, step s = .next t ∧ t.out.length = s.geo.width * s.geo.height ∧
      (∀ x y, x < s.geo.width → y < s.geo.height →
        ∃ q b, s.lut[x / 4 + (y / 4) * s.geo.bw]? = some q ∧ s.bs[q]? = some b ∧
          t.out[x + y * s.geo.width]? = b[x % 4 + (y % 4) * 4]?) ∧
      t = { s with
        frame := none
        out := t.out
        dbgOut := t.dbgOut
        status := { kind := .noError, cause := .noError, posRead := f.input.length, posBlock := s.blockPos } }

/-- R182: the debug raster is written exactly when the channel exists and the request asks for it, and OUT is written as
by R180 in either case. -/
def Obligations.DebugRasterShowsTheTags : Prop :=
  ∀ (s : State) (f : Frame), s.Configured → s.frame = some f → s.readPos = f.input.length →
    ∃ t, step s = .next t ∧
      (∀ x y, x < s.geo.width → y < s.geo.height →
        ∃ q b, s.lut[x / 4 + (y / 4) * s.geo.bw]? = some q ∧ s.bs[q]? = some b ∧
          t.out[x + y * s.geo.width]? = b[x % 4 + (y % 4) * 4]?) ∧
      (s.params.hasDebug = true → f.debug = true →
        t.dbgOut.length = s.geo.width * s.geo.height ∧
        ∀ x y, x < s.geo.width → y < s.geo.height →
          ∃ q tag, s.lut[x / 4 + (y / 4) * s.geo.bw]? = some q ∧ s.tags[q]? = some tag ∧
            t.dbgOut[x + y * s.geo.width]? = some (tag.setWidth 8)) ∧
      (s.params.hasDebug = false ∨ f.debug = false → t.dbgOut = s.dbgOut)

/-- R164: a frame that ends before its last block is no error, and the blocks it leaves uncovered keep their content. -/
def Obligations.PartialCoverageIsLegal : Prop :=
  ∀ (s : State) (f : Frame), s.frame = some f → s.readPos = f.input.length → s.blockPos < s.geo.nb →
    ∃ t, step s = .next t ∧ t.status.kind = .noError ∧
      ∀ q, s.blockPos ≤ q → q < s.geo.nb → t.bs[q]? = s.bs[q]?

/-- R22, R67, R107, R245, R7: while a frame is decoded, the parameters, CFG_STATE, the geometry, the curve table, the
requests to come and the input stay as they are. -/
def Obligations.FrameKeepsItsConfiguration : Prop :=
  ∀ (s t : State) (f : Frame), s.frame = some f → step s = .next t →
    t.params = s.params ∧ t.cfg = s.cfg ∧ t.geo = s.geo ∧ t.lut = s.lut ∧ t.requests = s.requests ∧
    t.answer = s.answer ∧ (t.frame = some f ∨ t.frame = none)

/-- R166, R140: a pass ends: at most one step for each byte still unread, and one for the end, no later request begun (that a
command, and the end of a frame, is one step each is the model's choice, notes/assumptions/14.md). -/
def Obligations.PassTerminates : Prop :=
  ∀ (s : State) (f : Frame), s.frame = some f →
    ∃ n t, n ≤ (f.input.length - s.readPos) + 1 ∧ Sys2Proof.core.run n s = .next t ∧
      t.frame = none ∧ t.requests = s.requests

/-- R184: after a frame whose image is in OUT, a frame made only of SKIP commands leaves OUT and BS as they are. -/
def Obligations.SkipFrameKeepsTheImage : Prop :=
  ∀ (s : State) (cmds : List Instr) (debug : Bool) (rest : List Request), s.Inv → s.cfg = .ready → s.frame = none →
    s.requests = .decodeFrame (cmds.flatMap encode) debug :: rest → (∀ i ∈ cmds, i.isSkip = true) →
    (cmds.map Instr.count).sum ≤ s.geo.nb →
    withinBound (cmds.flatMap encode).length s.params.maxInputBytes → s.out = s.raster s.pixel →
    ∃ t, Sys2Proof.core.run (cmds.length + 2) s = .next t ∧ t.frame = none ∧ t.out = s.out ∧ t.bs = s.bs ∧
      t.requests = rest ∧
      t.status = { kind := .noError, cause := .noError, posRead := (cmds.flatMap encode).length,
                   posBlock := (cmds.map Instr.count).sum }

/-! ### Requests, reset and the whole machine -/

/-- R132: an admitted DECODE_FRAME first resets all three caches, slots retained; R242: and sets both cursors to 0. -/
def Obligations.AdmittedFrameStartsFresh : Prop :=
  ∀ (s : State) (input : List Byte) (debug : Bool) (rest : List Request), s.frame = none → s.cfg = .ready →
    s.requests = .decodeFrame input debug :: rest → withinBound input.length s.params.maxInputBytes →
    step s = .next { s with
      requests := rest
      frame := some { input := input, debug := debug }
      cache2 := { s.cache2 with head := none, count := 0 }
      cache4 := { s.cache4 with head := none, count := 0 }
      cache8 := { s.cache8 with head := none, count := 0 }
      readPos := 0
      blockPos := 0 }

/-- R195: DECODE_FRAME on an UNCONFIGURED instance changes only STATUS, which reads `(4, 11, 0, 0)`.
(That the field `out` is the host's buffer as the core last left it is the model's choice, notes/assumptions/9.md; that
DBG_OUT stays too is read from R214, notes/assumptions/11.md; `requests` is the host's side, 13.md.) -/
def Obligations.UnconfiguredDecodeIsRefused : Prop :=
  ∀ (s : State) (input : List Byte) (debug : Bool) (rest : List Request), s.frame = none → s.cfg = .unconfigured →
    s.requests = .decodeFrame input debug :: rest →
    ∃ t, step s = .next t ∧
      t = { s with
        requests := rest
        status := { kind := .notConfigured, cause := .notConfigured, posRead := 0, posBlock := 0 } } ∧
      t.report = { kind := 4, cause := 11, posRead := 0, posBlock := 0, cfg := .unconfigured }

/-- R196: DECODE_FRAME with `L > MAX_INPUT_BYTES` changes only STATUS, which reads `(5, 12, 0, 0)`; with no bound, no frame
is refused. (That the field `out` is the host's buffer as the core last left it is the model's choice,
notes/assumptions/9.md; that DBG_OUT stays too is read from R214, notes/assumptions/11.md; `requests` is the host's side,
13.md.) -/
def Obligations.TooLongInputIsRefused : Prop :=
  ∀ (s : State) (input : List Byte) (debug : Bool) (rest : List Request), s.frame = none → s.cfg = .ready →
    s.requests = .decodeFrame input debug :: rest →
    (∀ m, s.params.maxInputBytes = some m → m < input.length →
      ∃ t, step s = .next t ∧
        t = { s with
          requests := rest
          status := { kind := .requestRefused, cause := .inputTooLarge, posRead := 0, posBlock := 0 } } ∧
        t.report = { kind := 5, cause := 12, posRead := 0, posBlock := 0, cfg := .ready }) ∧
    (s.params.maxInputBytes = none →
      ∃ t, step s = .next t ∧ t.frame = some { input := input, debug := debug })

/-- R191, R36, R241: a CONSTRUCT within the bounds makes the instance READY with the derived geometry, its curve table, a
block store and a tag store of their sizes, and three empty caches. (That OUT, DBG_OUT, the parameters and the READ_STATUS answer stay, that
TAGS is empty without the debug channel, and the counter `draws` are the model's choice or its reading of the spec,
notes/assumptions/2.md, 4.md, 9.md, 12.md and 22.md.) -/
def Obligations.ConstructConfigures : Prop :=
  ∀ (s : State) (w h : Nat) (rest : List Request), s.frame = none →
    s.requests = .construct (w : Int) (h : Int) :: rest → 0 < w → 0 < h →
    withinBound w s.params.maxWidth → withinBound h s.params.maxHeight →
    ∃ t, step s = .next t ∧ t.bs.length = (geometryOf w h).nb ∧ t.tags.length = t.tagsSize ∧
      t = { s with
        requests := rest
        cfg := .ready
        geo := geometryOf w h
        lut := buildLut (geometryOf w h)
        bs := t.bs
        tags := t.tags
        cache2 := { slots := t.cache2.slots, head := none, count := 0 }
        cache4 := { slots := t.cache4.slots, head := none, count := 0 }
        cache8 := { slots := t.cache8.slots, head := none, count := 0 }
        readPos := 0
        blockPos := 0
        status := { kind := .noError, cause := .noError, posRead := 0, posBlock := 0 }
        draws := t.draws }

/-- R191, R217: a CONSTRUCT with a bad geometry leaves the instance UNCONFIGURED and records its cause, the non-positive
size first. One size past its own bound is enough, whether or not the other size is bounded. -/
def Obligations.BadGeometryIsRefused : Prop :=
  ∀ (s : State) (w h : Int) (rest : List Request), s.frame = none → s.requests = .construct w h :: rest →
    (w ≤ 0 ∨ h ≤ 0 → ∃ t, step s = .next t ∧ t.frame = none ∧
      t.report = { kind := 3, cause := 9, posRead := 0, posBlock := 0, cfg := .unconfigured }) ∧
    (0 < w → 0 < h →
      (∃ mw : Nat, s.params.maxWidth = some mw ∧ w > mw) ∨ (∃ mh : Nat, s.params.maxHeight = some mh ∧ h > mh) → ∃ t, step s = .next t ∧ t.frame = none ∧
      t.report = { kind := 3, cause := 10, posRead := 0, posBlock := 0, cfg := .unconfigured })

/-- R193: DESTROY leaves the instance UNCONFIGURED with STATUS zero; on an UNCONFIGURED one it writes nothing but STATUS.
(That OUT, DBG_OUT and the parameters stay is the model's choice, notes/assumptions/2.md and 9.md.) -/
def Obligations.DestroyReleases : Prop :=
  ∀ (s : State) (rest : List Request), s.frame = none → s.requests = .destroy :: rest →
    ∃ t, step s = .next t ∧ t.cfg = .unconfigured ∧ t.requests = rest ∧
      t.status = { kind := .noError, cause := .noError, posRead := 0, posBlock := 0 } ∧
      t.out = s.out ∧ t.dbgOut = s.dbgOut ∧ t.params = s.params ∧
      (s.cfg = .unconfigured → t = { s with requests := rest, status := t.status })

/-- R194: READ_STATUS answers the four STATUS fields and CFG_STATE, and changes no state of the core. (`requests` and
`answer` are the host's side of the model, notes/assumptions/12.md and 13.md.) -/
def Obligations.ReadStatusChangesNothing : Prop :=
  ∀ (s : State) (rest : List Request), s.frame = none → s.requests = .readStatus :: rest →
    step s = .next { s with
      requests := rest
      answer := some { kind := s.status.kind.code, cause := s.status.cause.code, posRead := s.status.posRead,
                       posBlock := s.status.posBlock, cfg := s.cfg } }

/-- R240, R36: RESET makes the instance UNCONFIGURED, empties the caches, and zeroes the cursors and STATUS. That it leaves
the host's buffers and further requests, and the parameters, alone is the model's choice (notes/assumptions/8.md). -/
def Obligations.HardwareResetClears : Prop :=
  ∀ (s : State) (rest : List Request), s.frame = none → s.requests = .reset :: rest →
    ∃ t, step s = .next t ∧ t.cfg = .unconfigured ∧ t.readPos = 0 ∧ t.blockPos = 0 ∧
      t.status = { kind := .noError, cause := .noError, posRead := 0, posBlock := 0 } ∧
      t.cache2.head = none ∧ t.cache2.count = 0 ∧ t.cache4.head = none ∧ t.cache4.count = 0 ∧
      t.cache8.head = none ∧ t.cache8.count = 0 ∧
      t.requests = rest ∧ t.frame = none ∧ t.out = s.out ∧ t.dbgOut = s.dbgOut ∧ t.params = s.params

/-- R36, R240, the RESET column: the fields of `State.reset` whose reset value the spec gives. -/
def Obligations.ResetStateHasTheSpecValues : Prop :=
  State.reset.cfg = .unconfigured ∧ State.reset.readPos = 0 ∧ State.reset.blockPos = 0 ∧
  State.reset.status = { kind := .noError, cause := .noError, posRead := 0, posBlock := 0 } ∧
  State.reset.cache2.head = none ∧ State.reset.cache2.count = 0 ∧
  State.reset.cache4.head = none ∧ State.reset.cache4.count = 0 ∧
  State.reset.cache8.head = none ∧ State.reset.cache8.count = 0 ∧ State.reset.frame = none

/-- R240, R190: with no frame in progress and no request to come, the core waits. -/
def Obligations.IdleCoreWaits : Prop :=
  ∀ s : State, s.frame = none → s.requests = [] → step s = .next s

/-- R210, R211: the codes of the thirteen causes, and the code of the kind each is recorded with. -/
def Obligations.CausesHaveTheirCodes : Prop :=
  [Cause.noError, .truncExt, .truncSelector, .truncPalette, .truncColor, .truncBlockdata, .repeatAtZero, .cacheIndex,
    .blockOverrun, .geomNonpositive, .geomTooLarge, .notConfigured, .inputTooLarge].map
      (fun c => (c.code, c.kind.code)) =
    [(0, 0), (1, 1), (2, 1), (3, 1), (4, 1), (5, 1), (6, 2), (7, 2), (8, 2), (9, 3), (10, 3), (11, 4), (12, 5)]

/-- spec/93_implementation_defined.md ("No behaviour of this core hangs"), R78, R212: from every state, a step answers a
next state. -/
def Obligations.EveryStepAnswersANextState : Prop :=
  ∀ s : State, ∃ t, step s = .next t

/-- R20 to R31, R142: the invariant of the core holds after every step from a state that has it. -/
def Obligations.InvariantKeptByEveryStep : Prop :=
  ∀ s t : State, s.Inv → step s = .next t → t.Inv

/-- The state after reset has the invariant. -/
def Obligations.ResetHasTheInvariant : Prop := State.reset.Inv

/-- R144, R182: two states that differ only in the debug channel step to states that differ only in the debug channel: it
never alters BS, OUT, a cache, a cursor or STATUS. -/
def Obligations.DebugChannelNeverAltersOutput : Prop :=
  ∀ s u : State, s.eraseDebug = u.eraseDebug →
    ∃ t v, step s = .next t ∧ step u = .next v ∧ t.eraseDebug = v.eraseDebug
end

