-- ==== Sys2Proof/Laws/Decode.lean ====
section
/-! SUPPORT. What the pieces of the decoder and the encoder do: the header byte, the byte groups, and the lengths. -/

namespace Sys2Proof

@[simp] theorem headerTag_header (tag lf : Nibble) : headerTag (header tag lf) = tag := by
  revert tag lf; decide +kernel

@[simp] theorem headerLf_header (tag lf : Nibble) : headerLf (header tag lf) = lf := by
  revert tag lf; decide +kernel

/-- The header byte is its tag and its length field, and nothing else. -/
theorem header_of_fields (h : Byte) : header (headerTag h) (headerLf h) = h := by
  revert h; decide +kernel

/-- A count of a short command is in 1..16 (R73). -/
theorem shortCount_range (lf : Nibble) : 1 ≤ shortCount lf ∧ shortCount lf ≤ 16 := by
  have := lf.isLt; unfold shortCount; omega

/-- A count of a long command is in 1..4096 (R74). -/
theorem longCount_range (lf : Nibble) (ext : Byte) : 1 ≤ longCount lf ext ∧ longCount lf ext ≤ 4096 := by
  have := ((lf.setWidth 12 <<< 8) ||| ext.setWidth 12).isLt; unfold longCount; omega

/-- What `takeVector` answers: the bytes it takes are in front of the bytes it leaves. -/
theorem takeVector_some {n : Nat} {p rest : List Byte} {v : Vector Byte n} :
    takeVector n p = some (v, rest) ↔ p = v.toList ++ rest := by
  unfold takeVector
  constructor
  · intro h
    split at h
    · injection h with h; injection h with h1 h2
      subst h1 h2
      simp [Vector.toList]
    · cases h
  · rintro rfl
    have hl : (List.take n (v.toList ++ rest)) = v.toList := by
      rw [List.take_append_of_le_length (by simp), List.take_of_length_le (by simp)]
    have hd : (List.drop n (v.toList ++ rest)) = rest := by
      rw [List.drop_append_of_le_length (by simp), List.drop_of_length_le (by simp)]; rfl
    have hlen : (List.take n (v.toList ++ rest)).length = n := by simp
    rw [dif_pos hlen, hd]
    congr 2
    apply Vector.toArray_inj.mp
    simp only [hl]
    exact Array.toArray_toList

theorem takeVector_append {n : Nat} (v : Vector Byte n) (rest : List Byte) :
    takeVector n (v.toList ++ rest) = some (v, rest) := takeVector_some.mpr rfl

/-- `takeVector` answers nothing exactly when too few bytes remain. -/
theorem takeVector_none {n : Nat} {p : List Byte} : takeVector n p = none ↔ p.length < n := by
  unfold takeVector
  split
  · rename_i h; rw [List.length_take] at h; simp; omega
  · rename_i h; rw [List.length_take] at h; simp; omega

@[simp] theorem groupBytes_nil {n : Nat} : groupBytes ([] : List (Vector Byte n)) = [] := rfl
@[simp] theorem groupBytes_cons {n : Nat} (g : Vector Byte n) (gs : List (Vector Byte n)) :
    groupBytes (g :: gs) = g.toList ++ groupBytes gs := rfl

@[simp] theorem groupBytes_length {n : Nat} (gs : List (Vector Byte n)) : (groupBytes gs).length = gs.length * n := by
  induction gs with
  | nil => simp
  | cons g gs ih => simp [ih, Nat.add_mul, Nat.add_comm]

/-- The groups of an encoded data part are taken back as they are. -/
theorem takeGroups_append {n : Nat} (gs : List (Vector Byte n)) (rest : List Byte) :
    takeGroups n gs.length (groupBytes gs ++ rest) = (gs, rest) := by
  induction gs with
  | nil => rfl
  | cons g gs ih => simp [takeGroups, List.append_assoc, takeVector_append, ih]

/-- Whatever groups are taken, they and the bytes left are the bytes there were. -/
theorem takeGroups_bytes (n count : Nat) (p : List Byte) :
    p = groupBytes (takeGroups n count p).1 ++ (takeGroups n count p).2 := by
  induction count generalizing p with
  | zero => simp [takeGroups]
  | succ count ih =>
    cases h : takeVector n p with
    | none => simp [takeGroups, h]
    | some r =>
      obtain ⟨g, rest⟩ := r
      simp only [takeGroups, h, groupBytes_cons, List.append_assoc]
      rw [← ih rest]; exact takeVector_some.mp h

theorem takeGroups_length_le (n count : Nat) (p : List Byte) : (takeGroups n count p).1.length ≤ count := by
  induction count generalizing p with
  | zero => simp [takeGroups]
  | succ count ih =>
    cases h : takeVector n p with
    | none => simp [takeGroups, h]
    | some r => simpa [takeGroups, h] using ih r.2

/-- How many groups are taken: all that are asked, or all that the bytes hold. -/
theorem takeGroups_length {n : Nat} (hn : 0 < n) (count : Nat) (p : List Byte) :
    (takeGroups n count p).1.length = min count (p.length / n) := by
  induction count generalizing p with
  | zero => simp [takeGroups]
  | succ count ih =>
    cases h : takeVector n p with
    | none => simp [takeGroups, h, Nat.div_eq_of_lt (takeVector_none.mp h)]
    | some r =>
      obtain ⟨g, rest⟩ := r
      have hp : p.length / n = rest.length / n + 1 := by
        rw [takeVector_some.mp h, List.length_append, Vector.length_toList, Nat.add_div_left _ hn]
      simp only [takeGroups, h, List.length_cons, ih, hp]
      omega

/-- Fewer groups than asked are taken only when the bytes end first. -/
theorem takeGroups_short {n count : Nat} {p : List Byte} (h : (takeGroups n count p).1.length < count) :
    p.length < count * n := by
  induction count generalizing p with
  | zero => simp at h
  | succ count ih =>
    cases hv : takeVector n p with
    | none =>
      have := takeVector_none.mp hv
      rw [Nat.add_mul]; omega
    | some r =>
      obtain ⟨g, rest⟩ := r
      simp only [takeGroups, hv, List.length_cons] at h
      have h2 := ih (p := rest) (by omega)
      have h3 := takeVector_some.mp hv
      subst h3
      simp [Nat.add_mul]; omega

/-- What `takeData` answers. -/
theorem takeData_cases (n count : Nat) (p : List Byte) (mk : List (Vector Byte n) → Instr) :
    (∃ gs rest, gs.length = count ∧ p = groupBytes gs ++ rest ∧ takeData n count p mk = .ok (mk gs, rest)) ∨
      ∃ gs, gs.length < count ∧ p.length < count * n ∧ takeData n count p mk = .error (.noBlockData (mk gs)) := by
  unfold takeData
  split
  · rename_i h
    exact .inl ⟨_, _, h, takeGroups_bytes n count p, rfl⟩
  · rename_i h
    have := takeGroups_length_le n count p
    exact .inr ⟨_, by omega, takeGroups_short (by omega), rfl⟩

theorem takeData_append {n count : Nat} {gs : List (Vector Byte n)} (h : gs.length = count) (rest : List Byte)
    (mk : List (Vector Byte n) → Instr) : takeData n count (groupBytes gs ++ rest) mk = .ok (mk gs, rest) := by
  subst h; simp [takeData, takeGroups_append]

/-- The long count of the fields that the notation writes for `n` blocks is `n` (R80, R74). -/
theorem longCount_of_fields {n : Nat} (h1 : 1 ≤ n) (h2 : n ≤ 4096) : longCount (longLf n) (longExt n) = n := by
  have key : ∀ v : BitVec 12,
      (((v >>> 8).setWidth 4).setWidth 12 <<< 8) ||| (v.setWidth 8).setWidth 12 = v := by decide +kernel
  have hl : longLf n = ((BitVec.ofNat 12 (n - 1)) >>> 8).setWidth 4 := by
    apply BitVec.eq_of_toNat_eq
    simp only [longLf, BitVec.toNat_ofNat, BitVec.toNat_setWidth, BitVec.toNat_ushiftRight]
    rw [Nat.mod_eq_of_lt (a := n - 1) (by omega)]
  have he : longExt n = (BitVec.ofNat 12 (n - 1)).setWidth 8 := by
    apply BitVec.eq_of_toNat_eq
    simp only [longExt, BitVec.toNat_ofNat, BitVec.toNat_setWidth]
    rw [Nat.mod_eq_of_lt (a := n - 1) (b := 2 ^ 12) (by omega)]
  rw [longCount, hl, he, key, BitVec.toNat_ofNat, Nat.mod_eq_of_lt (by omega)]
  omega

/-- A pseudo-instruction over `n` blocks covers exactly `n` blocks (R80). -/
theorem expandOver_covers {n : Nat} (hn : 1 ≤ n) {short : Nibble → Instr} {long : Nibble → Byte → Instr}
    (hs : ∀ lf, (short lf).count = shortCount lf) (hl : ∀ lf ext, (long lf ext).count = longCount lf ext) :
    ((expandOver n short long).map Instr.count).sum = n := by
  simp only [expandOver, List.map_append, List.map_replicate, List.sum_append, List.sum_replicate, hl,
    longCount_of_fields (n := 4096) (by omega) (by omega), smul_eq_mul, List.map_cons, List.map_nil, List.sum_cons,
    List.sum_nil, Nat.add_zero]
  split
  · rename_i h
    rw [hs, shortCount, shortLf, BitVec.toNat_ofNat]; omega
  · rename_i h
    rw [hl, longCount_of_fields (by omega) (by omega)]; omega

theorem skipN_covers {n : Nat} (hn : 1 ≤ n) : ((skipN n).map Instr.count).sum = n :=
  expandOver_covers hn (fun _ => rfl) fun _ _ => rfl

theorem fillN_covers {n : Nat} (hn : 1 ≤ n) (c : Byte) : ((fillN n c).map Instr.count).sum = n :=
  expandOver_covers hn (fun _ => rfl) fun _ _ => rfl

end Sys2Proof
end

