-- ==== Sys2Proof/Laws/State.lean ====
section
/-! SUPPORT. One lemma for each field of State under each of its updates, true by rfl, so that no proof unfolds a record
update. -/

namespace Sys2Proof.Machine

variable (s : State)

/-! ### `State.commit` -/

@[simp] theorem State.commit_params (tag : Nibble) (count len : Nat) (blocks : List Block) : (s.commit tag count len blocks).params = s.params := rfl
@[simp] theorem State.commit_cfg (tag : Nibble) (count len : Nat) (blocks : List Block) : (s.commit tag count len blocks).cfg = s.cfg := rfl
@[simp] theorem State.commit_geo (tag : Nibble) (count len : Nat) (blocks : List Block) : (s.commit tag count len blocks).geo = s.geo := rfl
@[simp] theorem State.commit_status (tag : Nibble) (count len : Nat) (blocks : List Block) : (s.commit tag count len blocks).status = s.status := rfl
@[simp] theorem State.commit_readPos (tag : Nibble) (count len : Nat) (blocks : List Block) : (s.commit tag count len blocks).readPos = s.readPos + len := rfl
@[simp] theorem State.commit_blockPos (tag : Nibble) (count len : Nat) (blocks : List Block) : (s.commit tag count len blocks).blockPos = s.blockPos + count := rfl
@[simp] theorem State.commit_bs (tag : Nibble) (count len : Nat) (blocks : List Block) : (s.commit tag count len blocks).bs = writeBlocks s.bs s.blockPos blocks := rfl
@[simp] theorem State.commit_lut (tag : Nibble) (count len : Nat) (blocks : List Block) : (s.commit tag count len blocks).lut = s.lut := rfl
@[simp] theorem State.commit_cache2 (tag : Nibble) (count len : Nat) (blocks : List Block) : (s.commit tag count len blocks).cache2 = s.cache2 := rfl
@[simp] theorem State.commit_cache4 (tag : Nibble) (count len : Nat) (blocks : List Block) : (s.commit tag count len blocks).cache4 = s.cache4 := rfl
@[simp] theorem State.commit_cache8 (tag : Nibble) (count len : Nat) (blocks : List Block) : (s.commit tag count len blocks).cache8 = s.cache8 := rfl
@[simp] theorem State.commit_tags (tag : Nibble) (count len : Nat) (blocks : List Block) : (s.commit tag count len blocks).tags = if s.params.hasDebug then writeTags s.tags s.blockPos tag count else s.tags := rfl
@[simp] theorem State.commit_out (tag : Nibble) (count len : Nat) (blocks : List Block) : (s.commit tag count len blocks).out = s.out := rfl
@[simp] theorem State.commit_dbgOut (tag : Nibble) (count len : Nat) (blocks : List Block) : (s.commit tag count len blocks).dbgOut = s.dbgOut := rfl
@[simp] theorem State.commit_frame (tag : Nibble) (count len : Nat) (blocks : List Block) : (s.commit tag count len blocks).frame = s.frame := rfl
@[simp] theorem State.commit_requests (tag : Nibble) (count len : Nat) (blocks : List Block) : (s.commit tag count len blocks).requests = s.requests := rfl
@[simp] theorem State.commit_answer (tag : Nibble) (count len : Nat) (blocks : List Block) : (s.commit tag count len blocks).answer = s.answer := rfl
@[simp] theorem State.commit_draws (tag : Nibble) (count len : Nat) (blocks : List Block) : (s.commit tag count len blocks).draws = s.draws := rfl

/-! ### `State.raiseError` -/

@[simp] theorem State.raiseError_params (c : Cause) : (s.raiseError c).params = s.params := rfl
@[simp] theorem State.raiseError_cfg (c : Cause) : (s.raiseError c).cfg = s.cfg := rfl
@[simp] theorem State.raiseError_geo (c : Cause) : (s.raiseError c).geo = s.geo := rfl
@[simp] theorem State.raiseError_status (c : Cause) : (s.raiseError c).status = c.status s.readPos s.blockPos := rfl
@[simp] theorem State.raiseError_readPos (c : Cause) : (s.raiseError c).readPos = s.readPos := rfl
@[simp] theorem State.raiseError_blockPos (c : Cause) : (s.raiseError c).blockPos = s.blockPos := rfl
@[simp] theorem State.raiseError_bs (c : Cause) : (s.raiseError c).bs = s.bs := rfl
@[simp] theorem State.raiseError_lut (c : Cause) : (s.raiseError c).lut = s.lut := rfl
@[simp] theorem State.raiseError_cache2 (c : Cause) : (s.raiseError c).cache2 = s.cache2 := rfl
@[simp] theorem State.raiseError_cache4 (c : Cause) : (s.raiseError c).cache4 = s.cache4 := rfl
@[simp] theorem State.raiseError_cache8 (c : Cause) : (s.raiseError c).cache8 = s.cache8 := rfl
@[simp] theorem State.raiseError_tags (c : Cause) : (s.raiseError c).tags = s.tags := rfl
@[simp] theorem State.raiseError_out (c : Cause) : (s.raiseError c).out = s.freeRaster s.draws := rfl
@[simp] theorem State.raiseError_dbgOut (c : Cause) : (s.raiseError c).dbgOut = if s.params.hasDebug then s.freeRaster (s.draws + 1) else s.dbgOut := rfl
@[simp] theorem State.raiseError_frame (c : Cause) : (s.raiseError c).frame = none := rfl
@[simp] theorem State.raiseError_requests (c : Cause) : (s.raiseError c).requests = s.requests := rfl
@[simp] theorem State.raiseError_answer (c : Cause) : (s.raiseError c).answer = s.answer := rfl
@[simp] theorem State.raiseError_draws (c : Cause) : (s.raiseError c).draws = s.draws + 2 := rfl

/-! ### `State.beginFrame` -/

@[simp] theorem State.beginFrame_params (input : List Byte) (debug : Bool) : (s.beginFrame input debug).params = s.params := rfl
@[simp] theorem State.beginFrame_cfg (input : List Byte) (debug : Bool) : (s.beginFrame input debug).cfg = s.cfg := rfl
@[simp] theorem State.beginFrame_geo (input : List Byte) (debug : Bool) : (s.beginFrame input debug).geo = s.geo := rfl
@[simp] theorem State.beginFrame_status (input : List Byte) (debug : Bool) : (s.beginFrame input debug).status = s.status := rfl
@[simp] theorem State.beginFrame_readPos (input : List Byte) (debug : Bool) : (s.beginFrame input debug).readPos = 0 := rfl
@[simp] theorem State.beginFrame_blockPos (input : List Byte) (debug : Bool) : (s.beginFrame input debug).blockPos = 0 := rfl
@[simp] theorem State.beginFrame_bs (input : List Byte) (debug : Bool) : (s.beginFrame input debug).bs = s.bs := rfl
@[simp] theorem State.beginFrame_lut (input : List Byte) (debug : Bool) : (s.beginFrame input debug).lut = s.lut := rfl
@[simp] theorem State.beginFrame_cache2 (input : List Byte) (debug : Bool) : (s.beginFrame input debug).cache2 = s.cache2.reset := rfl
@[simp] theorem State.beginFrame_cache4 (input : List Byte) (debug : Bool) : (s.beginFrame input debug).cache4 = s.cache4.reset := rfl
@[simp] theorem State.beginFrame_cache8 (input : List Byte) (debug : Bool) : (s.beginFrame input debug).cache8 = s.cache8.reset := rfl
@[simp] theorem State.beginFrame_tags (input : List Byte) (debug : Bool) : (s.beginFrame input debug).tags = s.tags := rfl
@[simp] theorem State.beginFrame_out (input : List Byte) (debug : Bool) : (s.beginFrame input debug).out = s.out := rfl
@[simp] theorem State.beginFrame_dbgOut (input : List Byte) (debug : Bool) : (s.beginFrame input debug).dbgOut = s.dbgOut := rfl
@[simp] theorem State.beginFrame_frame (input : List Byte) (debug : Bool) : (s.beginFrame input debug).frame = some { input := input, debug := debug } := rfl
@[simp] theorem State.beginFrame_requests (input : List Byte) (debug : Bool) : (s.beginFrame input debug).requests = s.requests := rfl
@[simp] theorem State.beginFrame_answer (input : List Byte) (debug : Bool) : (s.beginFrame input debug).answer = s.answer := rfl
@[simp] theorem State.beginFrame_draws (input : List Byte) (debug : Bool) : (s.beginFrame input debug).draws = s.draws := rfl

/-! ### `State.finishFrame` -/

@[simp] theorem State.finishFrame_params (f : Frame) : (s.finishFrame f).params = s.params := rfl
@[simp] theorem State.finishFrame_cfg (f : Frame) : (s.finishFrame f).cfg = s.cfg := rfl
@[simp] theorem State.finishFrame_geo (f : Frame) : (s.finishFrame f).geo = s.geo := rfl
@[simp] theorem State.finishFrame_status (f : Frame) : (s.finishFrame f).status = Cause.noError.status f.input.length s.blockPos := rfl
@[simp] theorem State.finishFrame_readPos (f : Frame) : (s.finishFrame f).readPos = s.readPos := rfl
@[simp] theorem State.finishFrame_blockPos (f : Frame) : (s.finishFrame f).blockPos = s.blockPos := rfl
@[simp] theorem State.finishFrame_bs (f : Frame) : (s.finishFrame f).bs = s.bs := rfl
@[simp] theorem State.finishFrame_lut (f : Frame) : (s.finishFrame f).lut = s.lut := rfl
@[simp] theorem State.finishFrame_cache2 (f : Frame) : (s.finishFrame f).cache2 = s.cache2 := rfl
@[simp] theorem State.finishFrame_cache4 (f : Frame) : (s.finishFrame f).cache4 = s.cache4 := rfl
@[simp] theorem State.finishFrame_cache8 (f : Frame) : (s.finishFrame f).cache8 = s.cache8 := rfl
@[simp] theorem State.finishFrame_tags (f : Frame) : (s.finishFrame f).tags = s.tags := rfl
@[simp] theorem State.finishFrame_out (f : Frame) : (s.finishFrame f).out = s.raster s.pixel := rfl
@[simp] theorem State.finishFrame_dbgOut (f : Frame) : (s.finishFrame f).dbgOut = if s.params.hasDebug && f.debug then s.raster s.debugPixel else s.dbgOut := rfl
@[simp] theorem State.finishFrame_frame (f : Frame) : (s.finishFrame f).frame = none := rfl
@[simp] theorem State.finishFrame_requests (f : Frame) : (s.finishFrame f).requests = s.requests := rfl
@[simp] theorem State.finishFrame_answer (f : Frame) : (s.finishFrame f).answer = s.answer := rfl
@[simp] theorem State.finishFrame_draws (f : Frame) : (s.finishFrame f).draws = s.draws := rfl

/-! ### `State.forget` -/

@[simp] theorem State.forget_params : (s.forget).params = s.params := rfl
@[simp] theorem State.forget_cfg : (s.forget).cfg = s.cfg := rfl
@[simp] theorem State.forget_geo : (s.forget).geo = .unspecified s.draws := rfl
@[simp] theorem State.forget_status : (s.forget).status = s.status := rfl
@[simp] theorem State.forget_readPos : (s.forget).readPos = s.readPos := rfl
@[simp] theorem State.forget_blockPos : (s.forget).blockPos = s.blockPos := rfl
@[simp] theorem State.forget_bs : (s.forget).bs = Config.freeBlocks s.draws := rfl
@[simp] theorem State.forget_lut : (s.forget).lut = Config.freeTable s.draws := rfl
@[simp] theorem State.forget_cache2 : (s.forget).cache2 = .unspecified 2 s.draws := rfl
@[simp] theorem State.forget_cache4 : (s.forget).cache4 = .unspecified 4 s.draws := rfl
@[simp] theorem State.forget_cache8 : (s.forget).cache8 = .unspecified 8 s.draws := rfl
@[simp] theorem State.forget_tags : (s.forget).tags = if s.params.hasDebug then Config.freeTags s.draws else s.tags := rfl
@[simp] theorem State.forget_out : (s.forget).out = s.out := rfl
@[simp] theorem State.forget_dbgOut : (s.forget).dbgOut = s.dbgOut := rfl
@[simp] theorem State.forget_frame : (s.forget).frame = s.frame := rfl
@[simp] theorem State.forget_requests : (s.forget).requests = s.requests := rfl
@[simp] theorem State.forget_answer : (s.forget).answer = s.answer := rfl
@[simp] theorem State.forget_draws : (s.forget).draws = s.draws + 1 := rfl

/-! ### `State.hardwareReset` -/

@[simp] theorem State.hardwareReset_params : (s.hardwareReset).params = s.params := rfl
@[simp] theorem State.hardwareReset_cfg : (s.hardwareReset).cfg = .unconfigured := rfl
@[simp] theorem State.hardwareReset_geo : (s.hardwareReset).geo = .unspecified s.draws := rfl
@[simp] theorem State.hardwareReset_status : (s.hardwareReset).status = .zero := rfl
@[simp] theorem State.hardwareReset_readPos : (s.hardwareReset).readPos = 0 := rfl
@[simp] theorem State.hardwareReset_blockPos : (s.hardwareReset).blockPos = 0 := rfl
@[simp] theorem State.hardwareReset_bs : (s.hardwareReset).bs = Config.freeBlocks s.draws := rfl
@[simp] theorem State.hardwareReset_lut : (s.hardwareReset).lut = Config.freeTable s.draws := rfl
@[simp] theorem State.hardwareReset_cache2 : (s.hardwareReset).cache2 = .init 2 s.draws := rfl
@[simp] theorem State.hardwareReset_cache4 : (s.hardwareReset).cache4 = .init 4 s.draws := rfl
@[simp] theorem State.hardwareReset_cache8 : (s.hardwareReset).cache8 = .init 8 s.draws := rfl
@[simp] theorem State.hardwareReset_tags : (s.hardwareReset).tags = if s.params.hasDebug then Config.freeTags s.draws else s.tags := rfl
@[simp] theorem State.hardwareReset_out : (s.hardwareReset).out = s.out := rfl
@[simp] theorem State.hardwareReset_dbgOut : (s.hardwareReset).dbgOut = s.dbgOut := rfl
@[simp] theorem State.hardwareReset_frame : (s.hardwareReset).frame = s.frame := rfl
@[simp] theorem State.hardwareReset_requests : (s.hardwareReset).requests = s.requests := rfl
@[simp] theorem State.hardwareReset_answer : (s.hardwareReset).answer = s.answer := rfl
@[simp] theorem State.hardwareReset_draws : (s.hardwareReset).draws = s.draws + 1 := rfl

/-! ### `State.configure` -/

@[simp] theorem State.configure_params (w h : Nat) : (s.configure w h).params = s.params := rfl
@[simp] theorem State.configure_cfg (w h : Nat) : (s.configure w h).cfg = .ready := rfl
@[simp] theorem State.configure_geo (w h : Nat) : (s.configure w h).geo = geometryOf w h := rfl
@[simp] theorem State.configure_status (w h : Nat) : (s.configure w h).status = .zero := rfl
@[simp] theorem State.configure_readPos (w h : Nat) : (s.configure w h).readPos = 0 := rfl
@[simp] theorem State.configure_blockPos (w h : Nat) : (s.configure w h).blockPos = 0 := rfl
@[simp] theorem State.configure_bs (w h : Nat) : (s.configure w h).bs = (List.range (geometryOf w h).nb).map (Config.freeBlock s.draws) := rfl
@[simp] theorem State.configure_lut (w h : Nat) : (s.configure w h).lut = buildLut (geometryOf w h) := rfl
@[simp] theorem State.configure_cache2 (w h : Nat) : (s.configure w h).cache2 = .init 2 s.draws := rfl
@[simp] theorem State.configure_cache4 (w h : Nat) : (s.configure w h).cache4 = .init 4 s.draws := rfl
@[simp] theorem State.configure_cache8 (w h : Nat) : (s.configure w h).cache8 = .init 8 s.draws := rfl
@[simp] theorem State.configure_tags (w h : Nat) : (s.configure w h).tags = if s.params.hasDebug then (List.range (geometryOf w h).nb).map (Config.freeTag s.draws) else [] := rfl
@[simp] theorem State.configure_out (w h : Nat) : (s.configure w h).out = s.out := rfl
@[simp] theorem State.configure_dbgOut (w h : Nat) : (s.configure w h).dbgOut = s.dbgOut := rfl
@[simp] theorem State.configure_frame (w h : Nat) : (s.configure w h).frame = s.frame := rfl
@[simp] theorem State.configure_requests (w h : Nat) : (s.configure w h).requests = s.requests := rfl
@[simp] theorem State.configure_answer (w h : Nat) : (s.configure w h).answer = s.answer := rfl
@[simp] theorem State.configure_draws (w h : Nat) : (s.configure w h).draws = s.draws + 1 := rfl

/-! ### `State.failConstruct` -/

@[simp] theorem State.failConstruct_params (c : Cause) : (s.failConstruct c).params = s.params := rfl
@[simp] theorem State.failConstruct_cfg (c : Cause) : (s.failConstruct c).cfg = .unconfigured := rfl
@[simp] theorem State.failConstruct_geo (c : Cause) : (s.failConstruct c).geo = .unspecified s.draws := rfl
@[simp] theorem State.failConstruct_status (c : Cause) : (s.failConstruct c).status = c.status 0 0 := rfl
@[simp] theorem State.failConstruct_readPos (c : Cause) : (s.failConstruct c).readPos = Config.freeNat s.draws 8 := rfl
@[simp] theorem State.failConstruct_blockPos (c : Cause) : (s.failConstruct c).blockPos = Config.freeNat s.draws 9 := rfl
@[simp] theorem State.failConstruct_bs (c : Cause) : (s.failConstruct c).bs = Config.freeBlocks s.draws := rfl
@[simp] theorem State.failConstruct_lut (c : Cause) : (s.failConstruct c).lut = Config.freeTable s.draws := rfl
@[simp] theorem State.failConstruct_cache2 (c : Cause) : (s.failConstruct c).cache2 = .unspecified 2 s.draws := rfl
@[simp] theorem State.failConstruct_cache4 (c : Cause) : (s.failConstruct c).cache4 = .unspecified 4 s.draws := rfl
@[simp] theorem State.failConstruct_cache8 (c : Cause) : (s.failConstruct c).cache8 = .unspecified 8 s.draws := rfl
@[simp] theorem State.failConstruct_tags (c : Cause) : (s.failConstruct c).tags = if s.params.hasDebug then Config.freeTags s.draws else s.tags := rfl
@[simp] theorem State.failConstruct_out (c : Cause) : (s.failConstruct c).out = s.out := rfl
@[simp] theorem State.failConstruct_dbgOut (c : Cause) : (s.failConstruct c).dbgOut = s.dbgOut := rfl
@[simp] theorem State.failConstruct_frame (c : Cause) : (s.failConstruct c).frame = s.frame := rfl
@[simp] theorem State.failConstruct_requests (c : Cause) : (s.failConstruct c).requests = s.requests := rfl
@[simp] theorem State.failConstruct_answer (c : Cause) : (s.failConstruct c).answer = s.answer := rfl
@[simp] theorem State.failConstruct_draws (c : Cause) : (s.failConstruct c).draws = s.draws + 1 := rfl

/-! ### `State.refuse` -/

@[simp] theorem State.refuse_params (c : Cause) : (s.refuse c).params = s.params := rfl
@[simp] theorem State.refuse_cfg (c : Cause) : (s.refuse c).cfg = s.cfg := rfl
@[simp] theorem State.refuse_geo (c : Cause) : (s.refuse c).geo = s.geo := rfl
@[simp] theorem State.refuse_status (c : Cause) : (s.refuse c).status = c.status 0 0 := rfl
@[simp] theorem State.refuse_readPos (c : Cause) : (s.refuse c).readPos = s.readPos := rfl
@[simp] theorem State.refuse_blockPos (c : Cause) : (s.refuse c).blockPos = s.blockPos := rfl
@[simp] theorem State.refuse_bs (c : Cause) : (s.refuse c).bs = s.bs := rfl
@[simp] theorem State.refuse_lut (c : Cause) : (s.refuse c).lut = s.lut := rfl
@[simp] theorem State.refuse_cache2 (c : Cause) : (s.refuse c).cache2 = s.cache2 := rfl
@[simp] theorem State.refuse_cache4 (c : Cause) : (s.refuse c).cache4 = s.cache4 := rfl
@[simp] theorem State.refuse_cache8 (c : Cause) : (s.refuse c).cache8 = s.cache8 := rfl
@[simp] theorem State.refuse_tags (c : Cause) : (s.refuse c).tags = s.tags := rfl
@[simp] theorem State.refuse_out (c : Cause) : (s.refuse c).out = s.out := rfl
@[simp] theorem State.refuse_dbgOut (c : Cause) : (s.refuse c).dbgOut = s.dbgOut := rfl
@[simp] theorem State.refuse_frame (c : Cause) : (s.refuse c).frame = s.frame := rfl
@[simp] theorem State.refuse_requests (c : Cause) : (s.refuse c).requests = s.requests := rfl
@[simp] theorem State.refuse_answer (c : Cause) : (s.refuse c).answer = s.answer := rfl
@[simp] theorem State.refuse_draws (c : Cause) : (s.refuse c).draws = s.draws := rfl

/-! ### `State.readStatus` -/

@[simp] theorem State.readStatus_params : (s.readStatus).params = s.params := rfl
@[simp] theorem State.readStatus_cfg : (s.readStatus).cfg = s.cfg := rfl
@[simp] theorem State.readStatus_geo : (s.readStatus).geo = s.geo := rfl
@[simp] theorem State.readStatus_status : (s.readStatus).status = s.status := rfl
@[simp] theorem State.readStatus_readPos : (s.readStatus).readPos = s.readPos := rfl
@[simp] theorem State.readStatus_blockPos : (s.readStatus).blockPos = s.blockPos := rfl
@[simp] theorem State.readStatus_bs : (s.readStatus).bs = s.bs := rfl
@[simp] theorem State.readStatus_lut : (s.readStatus).lut = s.lut := rfl
@[simp] theorem State.readStatus_cache2 : (s.readStatus).cache2 = s.cache2 := rfl
@[simp] theorem State.readStatus_cache4 : (s.readStatus).cache4 = s.cache4 := rfl
@[simp] theorem State.readStatus_cache8 : (s.readStatus).cache8 = s.cache8 := rfl
@[simp] theorem State.readStatus_tags : (s.readStatus).tags = s.tags := rfl
@[simp] theorem State.readStatus_out : (s.readStatus).out = s.out := rfl
@[simp] theorem State.readStatus_dbgOut : (s.readStatus).dbgOut = s.dbgOut := rfl
@[simp] theorem State.readStatus_frame : (s.readStatus).frame = s.frame := rfl
@[simp] theorem State.readStatus_requests : (s.readStatus).requests = s.requests := rfl
@[simp] theorem State.readStatus_answer : (s.readStatus).answer = some s.report := rfl
@[simp] theorem State.readStatus_draws : (s.readStatus).draws = s.draws := rfl

end Sys2Proof.Machine
end

