-- ==== Sys2Proof/Laws/Ops.lean ====
section
/-! SUPPORT. What each shared operation can do, said once: the array writes, the checks of a command, the caches, the
bodies, and the end of a body. -/

namespace Sys2Proof.Machine

/-! ### The block store and the tag store -/

@[simp] theorem writeBlocks_length (bs : List Block) (q : Nat) (l : List Block) :
    (writeBlocks bs q l).length = bs.length := by
  induction l generalizing bs q with
  | nil => rfl
  | cons b l ih => simp [writeBlocks, ih]

theorem writeBlocks_getElem? (bs : List Block) (q i : Nat) (l : List Block) :
    (writeBlocks bs q l)[i]? =
      if q ≤ i ∧ i < q + l.length ∧ i < bs.length then l[i - q]? else bs[i]? := by
  induction l generalizing bs q with
  | nil => simp [writeBlocks]; omega
  | cons b l ih =>
    rw [writeBlocks, ih]
    simp only [List.length_cons, List.length_set, List.getElem?_set]
    by_cases h : q = i
    · subst h
      by_cases hb : q < bs.length <;> simp [hb]
    · have hq : q + 1 ≤ i ↔ q ≤ i := by omega
      by_cases hc : q ≤ i
      · have hi : i - q = (i - (q + 1)) + 1 := by omega
        simp [h, hc, hq, hi, Nat.add_right_comm, ← Nat.add_assoc]
      · simp [h, hc, hq]

/-- A block that a commit writes, inside the store. -/
theorem writeBlocks_inside (bs : List Block) (q j : Nat) (l : List Block) (hj : j < l.length)
    (hq : q + j < bs.length) : (writeBlocks bs q l)[q + j]? = l[j]? := by
  rw [writeBlocks_getElem?, if_pos (by omega)]; simp

/-- A block that a commit does not write. -/
theorem writeBlocks_outside (bs : List Block) (q i : Nat) (l : List Block)
    (h : i < q ∨ q + l.length ≤ i) : (writeBlocks bs q l)[i]? = bs[i]? := by
  rw [writeBlocks_getElem?, if_neg (by omega)]

@[simp] theorem writeTags_length (tags : List Nibble) (q : Nat) (tag : Nibble) (n : Nat) :
    (writeTags tags q tag n).length = tags.length := by
  induction n generalizing tags q with
  | zero => rfl
  | succ n ih => simp [writeTags, ih]

theorem writeTags_getElem? (tags : List Nibble) (q i : Nat) (tag : Nibble) (n : Nat) :
    (writeTags tags q tag n)[i]? =
      if q ≤ i ∧ i < q + n ∧ i < tags.length then some tag else tags[i]? := by
  induction n generalizing tags q with
  | zero => simp [writeTags]; omega
  | succ n ih =>
    rw [writeTags, ih]
    simp only [List.length_set, List.getElem?_set]
    by_cases h : q = i
    · subst h
      by_cases hb : q < tags.length <;> simp [hb]
    · rw [if_neg h]
      by_cases hc : q ≤ i ∧ i < q + (n + 1) ∧ i < tags.length
      · rw [if_pos hc, if_pos (by omega)]
      · rw [if_neg hc, if_neg (by omega)]

theorem State.readBlock_of_getElem? {s : State} {q : Nat} {b : Block} (h : s.bs[q]? = some b) :
    s.readBlock q = b := by
  simp [State.readBlock, List.getD_eq_getElem?_getD, h]

/-- Two states with the same entry `q` and the same draw counter read the same block there. -/
theorem State.readBlock_congr {s t : State} {q : Nat} (hb : t.bs[q]? = s.bs[q]?) (hd : t.draws = s.draws) :
    t.readBlock q = s.readBlock q := by
  simp [State.readBlock, List.getD_eq_getElem?_getD, hb, hd]

/-! ### The palette caches -/

@[simp] theorem Cache.reset_slots {c : Nat} (k : Cache c) : k.reset.slots = k.slots := rfl
@[simp] theorem Cache.reset_head {c : Nat} (k : Cache c) : k.reset.head = none := rfl
@[simp] theorem Cache.reset_count {c : Nat} (k : Cache c) : k.reset.count = 0 := rfl
@[simp] theorem Cache.add_slots {c : Nat} (k : Cache c) (p : Palette c) :
    (k.add p).slots = k.slots.set k.nextHead.val p k.nextHead.isLt := rfl
@[simp] theorem Cache.add_head {c : Nat} (k : Cache c) (p : Palette c) : (k.add p).head = some k.nextHead := rfl
@[simp] theorem Cache.add_count {c : Nat} (k : Cache c) (p : Palette c) : (k.add p).count = min (k.count + 1) 256 := rfl
@[simp] theorem Cache.nextHead_of_none {c : Nat} (k : Cache c) (h : k.head = none) : k.nextHead = 0 := by
  simp [Cache.nextHead, h]
@[simp] theorem Cache.nextHead_of_some {c : Nat} (k : Cache c) (i : Fin 256) (h : k.head = some i) :
    k.nextHead = i + 1 := by simp [Cache.nextHead, h]

/-! ### The checks of a command -/

/-- The block-range checks pass exactly when the whole range is inside the store. -/
theorem State.roomFrom_eq (s : State) (j n : Nat) :
    s.roomFrom j n = if n = 0 ∨ s.blockPos + j + n ≤ s.geo.nb then .ok () else .error .blockOverrun := by
  induction n generalizing j with
  | zero => simp [State.roomFrom]
  | succ n ih =>
    by_cases h : s.blockPos + j ≥ s.geo.nb
    · simp only [State.roomFrom, State.room, if_pos h]
      rw [if_neg (by omega)]
    · simp only [State.roomFrom, State.room, if_neg h, ih]
      by_cases h2 : s.blockPos + j + (n + 1) ≤ s.geo.nb
      · rw [if_pos (by omega), if_pos (by omega)]
      · rw [if_neg (by omega), if_neg (by omega)]

/-- The checks of a command with data: they pass exactly when the range is inside the store and every block has its
group. Otherwise the first block that fails decides: it is outside the store if the store ends no later than the
data, and else its data is missing. -/
theorem State.roomDataFrom_eq (s : State) (avail j n : Nat) (hj : j ≤ avail) :
    s.roomDataFrom avail j n =
      if n = 0 ∨ (s.blockPos + j + n ≤ s.geo.nb ∧ j + n ≤ avail) then .ok ()
      else if s.geo.nb ≤ s.blockPos + avail then .error .blockOverrun else .error .truncBlockdata := by
  induction n generalizing j with
  | zero => simp [State.roomDataFrom]
  | succ n ih =>
    by_cases h : s.blockPos + j ≥ s.geo.nb
    · simp only [State.roomDataFrom, State.room, if_pos h]
      rw [if_neg (by omega), if_pos (by omega)]
    · by_cases h2 : avail ≤ j
      · simp only [State.roomDataFrom, State.room, if_neg h, needGroup, if_pos h2]
        rw [if_neg (by omega), if_neg (by omega)]
      · simp only [State.roomDataFrom, State.room, if_neg h, needGroup, if_neg h2, ih (j + 1) (by omega)]
        by_cases h3 : s.blockPos + j + (n + 1) ≤ s.geo.nb ∧ j + (n + 1) ≤ avail
        · rw [if_pos (by omega), if_pos (by omega)]
        · have h4 : ¬(n = 0 ∨ (s.blockPos + (j + 1) + n ≤ s.geo.nb ∧ (j + 1) + n ≤ avail)) := by omega
          have h5 : ¬(n + 1 = 0 ∨ (s.blockPos + j + (n + 1) ≤ s.geo.nb ∧ j + (n + 1) ≤ avail)) := by omega
          rw [if_neg h4, if_neg h5]

/-! ### The end of a body -/

@[simp] theorem State.conclude_ok (s t : State) : s.conclude (.ok t) = .next t := rfl
@[simp] theorem State.conclude_error (s : State) (c : Cause) : s.conclude (.error c) = .next (s.raiseError c) := rfl

/-- A body ends in a commit or in error entry, and nowhere else. -/
theorem State.conclude_cases (s : State) (body : Except Cause State) :
    (∃ t, body = .ok t ∧ s.conclude body = .next t) ∨
      ∃ c, body = .error c ∧ s.conclude body = .next (s.raiseError c) := by
  cases body with
  | ok t => exact .inl ⟨t, rfl, rfl⟩
  | error c => exact .inr ⟨c, rfl, rfl⟩

/-! ### The bodies several commands share -/

/-- SKIP commits no block, or raises BLOCK_OVERRUN. -/
theorem State.skipBody_eq (s : State) (tag : Nibble) (count : Nat) :
    s.skipBody tag count =
      if count = 0 ∨ s.blockPos + count ≤ s.geo.nb then .ok (s.commit tag count (commandLen tag count) [])
      else .error .blockOverrun := by
  rw [State.skipBody, State.roomFrom_eq]; split <;> split <;> simp_all

/-- REPEAT raises REPEAT_AT_ZERO at position 0, BLOCK_OVERRUN past the store, and else commits copies of the block before
`block_pos`. -/
theorem State.repeatBody_eq (s : State) (tag : Nibble) (count : Nat) :
    s.repeatBody tag count =
      if s.blockPos = 0 then .error .repeatAtZero
      else if count = 0 ∨ s.blockPos + count ≤ s.geo.nb then
        .ok (s.commit tag count (commandLen tag count) (List.replicate count (s.readBlock (s.blockPos - 1))))
      else .error .blockOverrun := by
  rw [State.repeatBody, State.roomFrom_eq]; split
  · rfl
  · split <;> split <;> simp_all

/-- SOLID commits one solid block for each covered block, or raises BLOCK_OVERRUN. -/
theorem State.solidBody_eq (s : State) (tag : Nibble) (count : Nat) (c : Byte) :
    s.solidBody tag count c =
      if count = 0 ∨ s.blockPos + count ≤ s.geo.nb then
        .ok (s.commit tag count (commandLen tag count) (List.replicate count (solidBlock c)))
      else .error .blockOverrun := by
  rw [State.solidBody, State.roomFrom_eq]; split <;> split <;> simp_all

/-- A command with data commits one block a group, or raises what its first failing block raises. -/
theorem State.dataBody_eq (s added : State) (tag : Nibble) (count : Nat) (blocks : List Block) :
    s.dataBody added tag count blocks =
      if count = 0 ∨ (s.blockPos + count ≤ s.geo.nb ∧ count ≤ blocks.length) then
        .ok (added.commit tag count (commandLen tag count) (blocks.take count))
      else if s.geo.nb ≤ s.blockPos + blocks.length then .error .blockOverrun
      else .error .truncBlockdata := by
  rw [State.dataBody, State.roomDataFrom_eq _ _ _ _ (Nat.zero_le _)]
  simp only [Nat.add_zero, Nat.zero_add]
  by_cases h : count = 0 ∨ (s.blockPos + count ≤ s.geo.nb ∧ count ≤ blocks.length)
  · rw [if_pos h, if_pos h]
  · rw [if_neg h, if_neg h]
    by_cases h2 : s.geo.nb ≤ s.blockPos + blocks.length
    · rw [if_pos h2, if_pos h2]
    · rw [if_neg h2, if_neg h2]

/-- A cache reference raises CACHE_INDEX, or is a command with data over the fetched palette. -/
theorem State.cacheRefBody_eq {c k : Nat} (s : State) (cache : Cache c) (tag : Nibble) (count : Nat) (slot : Byte)
    (data : List (Vector Byte k)) (blockOf : Palette c → Vector Byte k → Block) :
    s.cacheRefBody cache tag count slot data blockOf =
      if cache.count ≤ slot.toNat then .error .cacheIndex
      else s.dataBody s tag count (data.map (blockOf (cache.get slot))) := rfl

end Sys2Proof.Machine
end

