-- ==== Sys2Proof/Laws/PerInstr.lean ====
section
/-! SUPPORT. Statements about every command as syntax, one lemma a constructor. -/

namespace Sys2Proof.Laws

/-- The count of a command lies in the range of its length class (R72 to R74). -/
def CountRange.Statement (i : Instr) : Prop :=
  1 ≤ i.count ∧ i.count ≤ if isLong i.tag then 4096 else 16

theorem CountRange.skip (lf : Nibble) : CountRange.Statement (.skip lf) := shortCount_range lf
theorem CountRange.skipLong (lf : Nibble) (ext : Byte) : CountRange.Statement (.skipLong lf ext) := longCount_range lf ext
theorem CountRange.repeatPrev (lf : Nibble) : CountRange.Statement (.repeatPrev lf) := shortCount_range lf
theorem CountRange.repeatPrevLong (lf : Nibble) (ext : Byte) : CountRange.Statement (.repeatPrevLong lf ext) :=
  longCount_range lf ext
theorem CountRange.solid (lf : Nibble) (c : Byte) : CountRange.Statement (.solid lf c) := shortCount_range lf
theorem CountRange.solidLong (lf : Nibble) (ext c : Byte) : CountRange.Statement (.solidLong lf ext c) :=
  longCount_range lf ext
theorem CountRange.solidSep (lf : Nibble) (c : Byte) : CountRange.Statement (.solidSep lf c) := shortCount_range lf
theorem CountRange.solidSepLong (lf : Nibble) (ext c : Byte) : CountRange.Statement (.solidSepLong lf ext c) :=
  longCount_range lf ext
theorem CountRange.pal2 (lf : Nibble) (pal : Palette 2) (data : List (Vector Byte 2)) :
    CountRange.Statement (.pal2 lf pal data) := shortCount_range lf
theorem CountRange.pal2Cache (lf : Nibble) (slot : Byte) (data : List (Vector Byte 2)) :
    CountRange.Statement (.pal2Cache lf slot data) := shortCount_range lf
theorem CountRange.pal4 (lf : Nibble) (pal : Palette 4) (data : List (Vector Byte 4)) :
    CountRange.Statement (.pal4 lf pal data) := shortCount_range lf
theorem CountRange.pal4Cache (lf : Nibble) (slot : Byte) (data : List (Vector Byte 4)) :
    CountRange.Statement (.pal4Cache lf slot data) := shortCount_range lf
theorem CountRange.pal8 (lf : Nibble) (pal : Palette 8) (data : List (Vector Byte 6)) :
    CountRange.Statement (.pal8 lf pal data) := shortCount_range lf
theorem CountRange.pal8Cache (lf : Nibble) (slot : Byte) (data : List (Vector Byte 6)) :
    CountRange.Statement (.pal8Cache lf slot data) := shortCount_range lf
theorem CountRange.raw (lf : Nibble) (data : List Block) : CountRange.Statement (.raw lf data) := shortCount_range lf
theorem CountRange.rawLong (lf : Nibble) (ext : Byte) (data : List Block) :
    CountRange.Statement (.rawLong lf ext data) := longCount_range lf ext

end Sys2Proof.Laws
end

