-- ==== Sys2Proof/Laws/Exec.lean ====
section
/-! SUPPORT. What the meaning of a command can do, said once for all commands: it commits, or it enters an error. -/

namespace Sys2Proof.Machine

theorem count_pos (i : Instr) : 1 ≤ i.count := by
  cases i with
  | skip lf => exact (Laws.CountRange.skip lf).1
  | skipLong lf e => exact (Laws.CountRange.skipLong lf e).1
  | repeatPrev lf => exact (Laws.CountRange.repeatPrev lf).1
  | repeatPrevLong lf e => exact (Laws.CountRange.repeatPrevLong lf e).1
  | solid lf c => exact (Laws.CountRange.solid lf c).1
  | solidLong lf e c => exact (Laws.CountRange.solidLong lf e c).1
  | solidSep lf c => exact (Laws.CountRange.solidSep lf c).1
  | solidSepLong lf e c => exact (Laws.CountRange.solidSepLong lf e c).1
  | pal2 lf p d => exact (Laws.CountRange.pal2 lf p d).1
  | pal2Cache lf i d => exact (Laws.CountRange.pal2Cache lf i d).1
  | pal4 lf p d => exact (Laws.CountRange.pal4 lf p d).1
  | pal4Cache lf i d => exact (Laws.CountRange.pal4Cache lf i d).1
  | pal8 lf p d => exact (Laws.CountRange.pal8 lf p d).1
  | pal8Cache lf i d => exact (Laws.CountRange.pal8Cache lf i d).1
  | raw lf d => exact (Laws.CountRange.raw lf d).1
  | rawLong lf e d => exact (Laws.CountRange.rawLong lf e d).1

/-- The groups of data bytes a command carries, and none for a command without data. -/
def groupCount : Instr → Option Nat
  | .pal2 _ _ d | .pal2Cache _ _ d => some d.length
  | .pal4 _ _ d | .pal4Cache _ _ d => some d.length
  | .pal8 _ _ d | .pal8Cache _ _ d => some d.length
  | .raw _ d | .rawLong _ _ d => some d.length
  | _ => none

/-- `s` with the cache add that a command makes when it commits (R130, R153). -/
def State.added (s : State) (i : Instr) : State :=
  { s with cache2 := s.cache2After i, cache4 := s.cache4After i, cache8 := s.cache8After i }

@[simp] theorem State.added_bs (s : State) (i : Instr) : (s.added i).bs = s.bs := rfl
@[simp] theorem State.added_tags (s : State) (i : Instr) : (s.added i).tags = s.tags := rfl
@[simp] theorem State.added_geo (s : State) (i : Instr) : (s.added i).geo = s.geo := rfl
@[simp] theorem State.added_params (s : State) (i : Instr) : (s.added i).params = s.params := rfl
@[simp] theorem State.added_readPos (s : State) (i : Instr) : (s.added i).readPos = s.readPos := rfl
@[simp] theorem State.added_blockPos (s : State) (i : Instr) : (s.added i).blockPos = s.blockPos := rfl
@[simp] theorem State.added_draws (s : State) (i : Instr) : (s.added i).draws = s.draws := rfl
@[simp] theorem State.added_frame (s : State) (i : Instr) : (s.added i).frame = s.frame := rfl
@[simp] theorem State.added_requests (s : State) (i : Instr) : (s.added i).requests = s.requests := rfl
@[simp] theorem State.added_cfg (s : State) (i : Instr) : (s.added i).cfg = s.cfg := rfl
@[simp] theorem State.added_status (s : State) (i : Instr) : (s.added i).status = s.status := rfl
@[simp] theorem State.added_lut (s : State) (i : Instr) : (s.added i).lut = s.lut := rfl
@[simp] theorem State.added_out (s : State) (i : Instr) : (s.added i).out = s.out := rfl
@[simp] theorem State.added_dbgOut (s : State) (i : Instr) : (s.added i).dbgOut = s.dbgOut := rfl
@[simp] theorem State.added_answer (s : State) (i : Instr) : (s.added i).answer = s.answer := rfl
@[simp] theorem State.added_cache2 (s : State) (i : Instr) : (s.added i).cache2 = s.cache2After i := rfl
@[simp] theorem State.added_cache4 (s : State) (i : Instr) : (s.added i).cache4 = s.cache4After i := rfl
@[simp] theorem State.added_cache8 (s : State) (i : Instr) : (s.added i).cache8 = s.cache8After i := rfl

/-- A SKIP leaves each block it covers as it is (R145). -/
theorem State.blockAfter_of_isSkip {i : Instr} (s : State) (h : i.isSkip = true) (j : Nat) :
    s.blockAfter i j = s.readBlock (s.blockPos + j) := by
  cases i <;> simp_all [Instr.isSkip, State.blockAfter]

/-- The blocks that a commit of `i` writes: none for SKIP, else what each covered block then holds. -/
def State.writes (s : State) (i : Instr) : List Block :=
  if i.isSkip then [] else (List.range i.count).map (s.blockAfter i)

theorem State.writes_of_isSkip {i : Instr} (s : State) (h : i.isSkip = true) : s.writes i = [] := by
  simp [State.writes, h]

theorem State.writes_getElem? {i : Instr} (s : State) (h : i.isSkip = false) {j : Nat} (hj : j < i.count) :
    (s.writes i)[j]? = some (s.blockAfter i j) := by simp [State.writes, h, hj]

theorem State.writes_length_le (s : State) (i : Instr) : (s.writes i).length ≤ i.count := by
  unfold State.writes; split <;> simp

/-- The writes of a command are any list that is as long as its count and agrees with `blockAfter`. -/
theorem State.writes_eq {i : Instr} {s : State} {blocks : List Block} (hs : i.isSkip = false)
    (hl : blocks.length = i.count) (hb : ∀ j, j < i.count → blocks[j]? = some (s.blockAfter i j)) :
    blocks = s.writes i := by
  apply List.ext_getElem?
  intro j
  by_cases hj : j < i.count
  · rw [hb j hj, s.writes_getElem? hs hj]
  · have := s.writes_length_le i
    rw [List.getElem?_eq_none (by omega), List.getElem?_eq_none (by omega)]

/-- The command commits: its range is inside the store, its data is all there, and the next state is the commit of all
its writes. -/
def Commits (i : Instr) (s : State) : Prop :=
  s.blockPos + i.count ≤ s.geo.nb ∧ (∀ k, groupCount i = some k → i.count ≤ k) ∧
    exec i s = .next ((s.added i).commit i.tag i.count (commandLen i.tag i.count) (s.writes i))

/-- The command enters an error of the stream. -/
def Raises (i : Instr) (s : State) : Prop :=
  ∃ c : Cause, c.ofStream = true ∧ exec i s = .next (s.raiseError c)

/-- A command whose only check is the block range. -/
theorem cases_of_range {i : Instr} {s : State} (hg : groupCount i = none) (ha : s.added i = s)
    (he : exec i s = s.conclude (if i.count = 0 ∨ s.blockPos + i.count ≤ s.geo.nb then
      .ok (s.commit i.tag i.count (commandLen i.tag i.count) (s.writes i)) else .error .blockOverrun)) :
    Commits i s ∨ Raises i s := by
  have hp := count_pos i
  split at he
  · exact .inl ⟨by omega, by simp [hg], by rw [ha]; exact he⟩
  · exact .inr ⟨_, rfl, he⟩

/-- A command that writes one and the same block everywhere. -/
theorem writes_replicate {i : Instr} {s : State} {b : Block} (hs : i.isSkip = false)
    (hb : ∀ j, s.blockAfter i j = b) : s.writes i = List.replicate i.count b :=
  (State.writes_eq hs (by simp) fun j hj => by simp [hj, hb]).symm

/-- A command with data, once its palette is known. -/
theorem cases_of_data {i : Instr} {s : State} (blocks : List Block) (hs : i.isSkip = false)
    (hb : ∀ j, j < blocks.length → blocks[j]? = some (s.blockAfter i j)) (hg : groupCount i = some blocks.length)
    (he : exec i s = s.conclude (s.dataBody (s.added i) i.tag i.count blocks)) : Commits i s ∨ Raises i s := by
  have hp := count_pos i
  rw [State.dataBody_eq] at he
  split at he
  · have hl : i.count ≤ blocks.length := by omega
    have hw : blocks.take i.count = s.writes i :=
      State.writes_eq hs (by simp [hl]) fun j hj => by rw [List.getElem?_take_of_lt hj, hb j (by omega)]
    exact .inl ⟨by omega, fun k hk => by rw [hg] at hk; injection hk with hk; omega, by rw [← hw]; exact he⟩
  · split at he <;> exact .inr ⟨_, rfl, he⟩

/-- Each group of a data command goes through the function of its palette. -/
theorem groups_getElem? {k : Nat} (data : List (Vector Byte k)) (f : Vector Byte k → Block) (j : Nat)
    (hj : j < (data.map f).length) : (data.map f)[j]? = some (f (data.getD j default)) := by
  have hj' : j < data.length := by simpa using hj
  simp [hj']

/-- A cache-reference command. -/
theorem cases_of_cacheRef {i : Instr} {s : State} {c k : Nat} (cache : Cache c) (slot : Byte)
    (data : List (Vector Byte k)) (blockOf : Palette c → Vector Byte k → Block) (hs : i.isSkip = false)
    (ha : s.added i = s) (hb : ∀ j, s.blockAfter i j = blockOf (cache.get slot) (data.getD j default))
    (hg : groupCount i = some data.length)
    (he : exec i s = s.conclude (s.cacheRefBody cache i.tag i.count slot data blockOf)) :
    Commits i s ∨ Raises i s := by
  rw [State.cacheRefBody_eq] at he
  split at he
  · exact .inr ⟨_, rfl, he⟩
  · exact cases_of_data _ hs (fun j hj => by rw [hb]; exact groups_getElem? _ _ j hj) (by simpa using hg)
      (by rw [ha]; exact he)

/-- REPEAT and REPEAT-long. -/
theorem cases_of_repeat {i : Instr} {s : State} (hs : i.isSkip = false) (ha : s.added i = s)
    (hb : ∀ j, s.blockAfter i j = s.readBlock (s.blockPos - 1)) (hg : groupCount i = none)
    (he : exec i s = s.conclude (s.repeatBody i.tag i.count)) : Commits i s ∨ Raises i s := by
  rw [State.repeatBody_eq, ← writes_replicate hs hb] at he
  split at he
  · exact .inr ⟨_, rfl, he⟩
  · exact cases_of_range hg ha he

/-- SOLID, SOLID-long, SOLID-SEP and SOLID-SEP-long. -/
theorem cases_of_solid {i : Instr} {s : State} (c : Byte) (hs : i.isSkip = false) (ha : s.added i = s)
    (hb : ∀ j, s.blockAfter i j = solidBlock c) (hg : groupCount i = none)
    (he : exec i s = s.conclude (s.solidBody i.tag i.count c)) : Commits i s ∨ Raises i s := by
  rw [State.solidBody_eq, ← writes_replicate hs hb] at he
  exact cases_of_range hg ha he

/-- SKIP and SKIP-long. -/
theorem cases_of_skip {i : Instr} {s : State} (hs : i.isSkip = true) (ha : s.added i = s) (hg : groupCount i = none)
    (he : exec i s = s.conclude (s.skipBody i.tag i.count)) : Commits i s ∨ Raises i s := by
  rw [State.skipBody_eq, ← s.writes_of_isSkip hs] at he
  exact cases_of_range hg ha he

/-- EVERY COMMAND, IN EVERY STATE, commits with all its writes or enters an error of the stream. -/
theorem exec_cases (i : Instr) (s : State) : Commits i s ∨ Raises i s := by
  cases i with
  | skip lf => exact cases_of_skip rfl rfl rfl rfl
  | skipLong lf e => exact cases_of_skip rfl rfl rfl rfl
  | repeatPrev lf => exact cases_of_repeat rfl rfl (fun _ => rfl) rfl rfl
  | repeatPrevLong lf e => exact cases_of_repeat rfl rfl (fun _ => rfl) rfl rfl
  | solid lf c => exact cases_of_solid c rfl rfl (fun _ => rfl) rfl rfl
  | solidLong lf e c => exact cases_of_solid c rfl rfl (fun _ => rfl) rfl rfl
  | solidSep lf c => exact cases_of_solid c rfl rfl (fun _ => rfl) rfl rfl
  | solidSepLong lf e c => exact cases_of_solid c rfl rfl (fun _ => rfl) rfl rfl
  | pal2 lf p d => exact cases_of_data _ rfl (groups_getElem? d (palBlock2 p)) (by simp [groupCount]) rfl
  | pal2Cache lf i d => exact cases_of_cacheRef s.cache2 i d palBlock2 rfl rfl (fun _ => rfl) rfl rfl
  | pal4 lf p d => exact cases_of_data _ rfl (groups_getElem? d (palBlock4 p)) (by simp [groupCount]) rfl
  | pal4Cache lf i d => exact cases_of_cacheRef s.cache4 i d palBlock4 rfl rfl (fun _ => rfl) rfl rfl
  | pal8 lf p d => exact cases_of_data _ rfl (groups_getElem? d (palBlock8 p)) (by simp [groupCount]) rfl
  | pal8Cache lf i d => exact cases_of_cacheRef s.cache8 i d palBlock8 rfl rfl (fun _ => rfl) rfl rfl
  | raw lf d => exact cases_of_data d rfl (fun j hj => by simp [State.blockAfter, hj]) rfl rfl
  | rawLong lf e d => exact cases_of_data d rfl (fun j hj => by simp [State.blockAfter, hj]) rfl rfl

end Sys2Proof.Machine
end

