-- ==== Sys2Proof/Laws/Memory.lean ====
section
/-! SUPPORT. The arrays of a READY instance keep their form under every operation that writes them, and have it at reset. -/

namespace Sys2Proof.Machine

theorem Memory.wf_iff (s : State) : Memory.wf s = true ↔
    (s.cfg = .ready → s.bs.length = s.geo.nb ∧ s.lut.length = s.geo.nb ∧ s.tags.length = s.tagsSize) := by
  rw [Memory.wf, decide_eq_true_iff]

@[simp] theorem placeBlocks_length (g : Geometry) (ts : List Nat) (seq : Nat) (lut : List Nat) :
    (placeBlocks g ts seq lut).length = lut.length := by
  induction ts generalizing seq lut with
  | nil => rfl
  | cons t ts ih => simp only [placeBlocks]; split <;> (try split) <;> simp [ih]

@[simp] theorem buildLut_length (g : Geometry) : (buildLut g).length = g.nb := by simp [buildLut]

theorem reset_memory_wf : Memory.wf State.reset = true := by decide

/-- The writes of a commit keep the form. -/
theorem commit_memory_wf {s : State} (h : Memory.wf s = true) (tag : Nibble) (count len : Nat) (blocks : List Block) :
    Memory.wf (s.commit tag count len blocks) = true := by
  rw [Memory.wf_iff] at *
  intro hr
  obtain ⟨h1, h2, h3⟩ := h hr
  refine ⟨by simpa using h1, by simpa using h2, ?_⟩
  simp only [State.commit_tags, State.tagsSize, State.commit_params, State.commit_geo] at *
  split <;> simp_all

/-- CONSTRUCT makes arrays of the form. -/
theorem configure_memory_wf (s : State) (w h : Nat) : Memory.wf (s.configure w h) = true := by
  rw [Memory.wf_iff]
  intro _
  refine ⟨by simp, by simp, ?_⟩
  simp only [State.configure_tags, State.tagsSize, State.configure_params, State.configure_geo]
  split <;> rename_i hd <;> simp [hd]

/-- An operation that keeps the configuration, the geometry and the arrays keeps the form. -/
theorem memory_wf_of_same {s t : State} (h : Memory.wf s = true) (hc : t.cfg = .ready → s.cfg = .ready)
    (hp : t.params = s.params) (hg : t.geo = s.geo) (hb : t.bs = s.bs) (hl : t.lut = s.lut) (ht : t.tags = s.tags) :
    Memory.wf t = true := by
  rw [Memory.wf_iff] at *
  intro hr
  rw [hb, hl, ht, hg, State.tagsSize, hp, hg]
  exact h (hc hr)

theorem raiseError_memory_wf {s : State} (h : Memory.wf s = true) (c : Cause) : Memory.wf (s.raiseError c) = true :=
  memory_wf_of_same h id rfl rfl rfl rfl rfl

theorem finishFrame_memory_wf {s : State} (h : Memory.wf s = true) (f : Frame) : Memory.wf (s.finishFrame f) = true :=
  memory_wf_of_same h id rfl rfl rfl rfl rfl

theorem beginFrame_memory_wf {s : State} (h : Memory.wf s = true) (input : List Byte) (debug : Bool) :
    Memory.wf (s.beginFrame input debug) = true := memory_wf_of_same h id rfl rfl rfl rfl rfl

/-- An UNCONFIGURED instance has the form, whatever its arrays hold. -/
theorem unconfigured_memory_wf {s : State} (h : s.cfg = .unconfigured) : Memory.wf s = true := by
  rw [Memory.wf_iff]; simp [h]

end Sys2Proof.Machine
end

