-- ==== Sys2Proof/Laws/Run.lean ====
section
/-! SUPPORT. Runs of several steps, and what one step can do, for each kind of step. -/

namespace Sys2Proof.Machine

theorem run_zero (s : State) : core.run 0 s = .next s := by simp [Host.Core.run]

/-- A run whose first step answers `t` is the run from `t`. -/
theorem run_succ {s t : State} (h : step s = .next t) (n : Nat) : core.run (n + 1) s = core.run n t := by
  simp [Host.Core.run, core, h]

/-- Between requests, a step serves the next request or waits. -/
theorem step_idle {s : State} (h : s.frame = none) : step s = .next s.idle := by simp [step, h]

/-- With a frame in progress and bytes unread, a step runs one command. -/
theorem step_command {s : State} {f : Frame} (h : s.frame = some f) (hr : s.readPos < f.input.length) :
    step s = s.runCommand f := by simp [step, h, State.decodeTurn, hr]

/-- With a frame in progress and no byte unread, a step ends the frame. -/
theorem step_finish {s : State} {f : Frame} (h : s.frame = some f) (hr : ¬s.readPos < f.input.length) :
    step s = .next (s.finishFrame f) := by simp [step, h, State.decodeTurn, hr]

/-- Whether or not all block data is there, what runs is the command with the groups that are there (log entry 18). -/
theorem runDecoded_takeData (s : State) (f : Frame) (n count : Nat) (p : List Byte)
    (mk : List (Vector Byte n) → Instr) :
    s.runDecoded f (takeData n count p mk) = exec (mk (takeGroups n count p).1) s := by
  unfold takeData; split <;> rfl

/-- A command that carries fewer groups than it covers blocks never commits. -/
theorem raises_of_short {i : Instr} {s : State} {k : Nat} (h : groupCount i = some k) (hk : k < i.count) : Raises i s := by
  rcases exec_cases i s with ⟨-, hg, -⟩ | hr
  · have := hg k h; omega
  · exact hr

end Sys2Proof.Machine
end

