-- ==== Sys2Proof/Tests/Slice0.lean ====
section
/-! SUPPORT. Small tests of one step or one decoding each, with the expected values of spec/95_test_vectors.md and of the
examples of the rules named beside them, and for each statement of Certificates/Slice0/Obligations.lean that has
hypotheses a witness that meets them together. -/

-- One theorem after the other: many small kernel evaluations at once ask for more threads than the memory limit gives.
set_option Elab.async false

open Sys2Proof Sys2Proof.Machine

namespace Sys2Proof.Tests

/-! ### Small states -/

/-- A block of one colour. -/
def flat (c : Byte) : Block := Vector.replicate 16 c

/-- The block of bytes `n, n+1, ..., n+15`. -/
def counting (n : Byte) : Block := Vector.ofFn fun k => n + BitVec.ofNat 8 k.val

/-- A READY instance of one block, 4x4 pixels, whose block holds zeros. -/
def single : State :=
  { State.reset with cfg := .ready, geo := geometryOf 4 4, lut := [0], bs := [flat 0], tags := [0] }

/-- A READY instance of two blocks, 8x4 pixels: block 0 holds 0B, block 1 holds 0C. -/
def pair : State :=
  { State.reset with cfg := .ready, geo := geometryOf 8 4, lut := [0, 1], bs := [flat 0x0B, flat 0x0C], tags := [0, 0] }

/-- `pair` with `block_pos` 1. -/
def pairAtOne : State := { pair with blockPos := 1 }

/-- `pair` with one palette in each cache. -/
def pairCached : State :=
  { pair with
    cache2 := pair.cache2.add #v[0x10, 0x20]
    cache4 := pair.cache4.add #v[1, 2, 3, 4]
    cache8 := pair.cache8.add #v[0x00, 0x11, 0x22, 0x33, 0x44, 0x55, 0x66, 0x77] }

/-- The next state of a step, if there is one. -/
def after (s : State) : Option State :=
  match step s with
  | .next t => some t
  | _ => none

/-- `s` with a frame of these bytes in progress, at its first byte; the caches are left as they are. -/
def decoding (s : State) (input : List Byte) (debug : Bool := true) : State :=
  { s with frame := some { input := input, debug := debug }, readPos := 0 }

/-- What the first command of a frame leaves: block store, tags, cursors. -/
def effect (s : State) (input : List Byte) : Option (List Block × List Nibble × Nat × Nat) :=
  (after (decoding s input)).map fun t => (t.bs, t.tags, t.readPos, t.blockPos)

/-- The STATUS that the first command of a frame leaves, as `[KIND, CAUSE, POS_READ, POS_BLOCK]`, with the block store. -/
def failure (s : State) (input : List Byte) : Option (List Nat × List Block) :=
  (after (decoding s input)).map fun t =>
    ([t.report.kind, t.report.cause, t.report.posRead, t.report.posBlock], t.bs)

/-! ### WellFormed refuses a command whose groups are not as many as its blocks (R75, R76) -/

theorem test_wf_pal2_short : (Instr.pal2 1 #v[1, 2] [#v[0, 0]]).wf = false := by decide
theorem test_wf_pal2Cache_long : (Instr.pal2Cache 0 0 [#v[0, 0], #v[0, 0]]).wf = false := by decide
theorem test_wf_pal4_short : (Instr.pal4 0 #v[1, 2, 3, 4] []).wf = false := by decide
theorem test_wf_pal4Cache_short : (Instr.pal4Cache 2 0 [#v[0, 0, 0, 0]]).wf = false := by decide
theorem test_wf_pal8_short : (Instr.pal8 0 #v[1, 2, 3, 4, 5, 6, 7, 8] []).wf = false := by decide
theorem test_wf_pal8Cache_short : (Instr.pal8Cache 15 0 []).wf = false := by decide
theorem test_wf_raw_short : (Instr.raw 1 [flat 0]).wf = false := by decide
theorem test_wf_rawLong_short : (Instr.rawLong 0 1 [flat 0]).wf = false := by decide
theorem test_wf_raw : (Instr.raw 1 [flat 0, flat 1]).wf = true := by decide

/-! ### Every command's word, written out from R71 and R76 -/

/-- `0000 LLLL` -/
theorem test_decode_skip : decode [0b00001111#8] = .ok (.skip 15, []) := by decide
/-- `0001 LLLL EEEEEEEE` -/
theorem test_decode_skipLong : decode [0b00011111#8, 0b11111110#8, 0xAA] = .ok (.skipLong 15 254, [0xAA]) := by decide
/-- `0010 LLLL` -/
theorem test_decode_repeat : decode [0b00100101#8] = .ok (.repeatPrev 5, []) := by decide
/-- `0011 LLLL EEEEEEEE`, the `3A 3C` of section 2.4 -/
theorem test_decode_repeatLong : decode [0b00111010#8, 0b00111100#8] = .ok (.repeatPrevLong 10 60, []) := by decide
/-- `0100 LLLL CCCCCCCC` -/
theorem test_decode_solid : decode [0b01000011#8, 0b00000111#8] = .ok (.solid 3 7, []) := by decide
/-- `0101 LLLL EEEEEEEE CCCCCCCC` -/
theorem test_decode_solidLong : decode [0b01011010#8, 0b00111100#8, 0x99] = .ok (.solidLong 10 60 0x99, []) := by decide
/-- `0110 LLLL CCCCCCCC` -/
theorem test_decode_solidSep : decode [0b01101111#8, 0x5A] = .ok (.solidSep 15 0x5A, []) := by decide
/-- `0111 LLLL EEEEEEEE CCCCCCCC` -/
theorem test_decode_solidSepLong : decode [0b01110000#8, 0b00000001#8, 0x5A] = .ok (.solidSepLong 0 1 0x5A, []) := by
  decide
/-- `1000 LLLL`, `P[0..1]`, 2 bytes a block -/
theorem test_decode_pal2 :
    decode [0b10000001#8, 0x10, 0x20, 0xA5, 0x0F, 0x01, 0x02] =
      .ok (.pal2 1 #v[0x10, 0x20] [#v[0xA5, 0x0F], #v[0x01, 0x02]], []) := by decide
/-- `1001 LLLL`, `I`, 2 bytes a block -/
theorem test_decode_pal2Cache :
    decode [0b10010000#8, 0x07, 0xFF, 0x00, 0xEE] = .ok (.pal2Cache 0 7 [#v[0xFF, 0x00]], [0xEE]) := by decide
/-- `1010 LLLL`, `P[0..3]`, 4 bytes a block -/
theorem test_decode_pal4 :
    decode [0b10100000#8, 1, 2, 3, 4, 0x1B, 0xE4, 0x00, 0xFF] =
      .ok (.pal4 0 #v[1, 2, 3, 4] [#v[0x1B, 0xE4, 0x00, 0xFF]], []) := by decide
/-- `1011 LLLL`, `I`, 4 bytes a block -/
theorem test_decode_pal4Cache :
    decode [0b10110000#8, 0xFF, 0x1B, 0xE4, 0x00, 0xFE] = .ok (.pal4Cache 0 255 [#v[0x1B, 0xE4, 0x00, 0xFE]], []) := by
  decide
/-- `1100 LLLL`, `P[0..7]`, 6 bytes a block -/
theorem test_decode_pal8 :
    decode [0b11000000#8, 0, 1, 2, 3, 4, 5, 6, 7, 0x05, 0x39, 0x77, 0xFA, 0xC6, 0x88] =
      .ok (.pal8 0 #v[0, 1, 2, 3, 4, 5, 6, 7] [#v[0x05, 0x39, 0x77, 0xFA, 0xC6, 0x88]], []) := by decide
/-- `1101 LLLL`, `I`, 6 bytes a block -/
theorem test_decode_pal8Cache :
    decode [0b11010000#8, 3, 0x05, 0x39, 0x77, 0xFA, 0xC6, 0x88] =
      .ok (.pal8Cache 0 3 [#v[0x05, 0x39, 0x77, 0xFA, 0xC6, 0x88]], []) := by decide
/-- `1110 LLLL`, 16 bytes a block -/
theorem test_decode_raw :
    decode ([0b11100000#8] ++ (counting 1).toList) = .ok (.raw 0 [counting 1], []) := by decide
/-- `1111 LLLL EEEEEEEE`, 16 bytes a block -/
theorem test_decode_rawLong :
    decode ([0b11110000#8, 0b00000001#8] ++ (flat 0).toList ++ (flat 255).toList) =
      .ok (.rawLong 0 1 [flat 0, flat 255], []) := by decide
/-- A cut header has a name: EXT, colour, palette, selector (R211 causes 1 to 4). -/
theorem test_decode_truncations :
    decode [0x11] = .error .noExt ∧ decode [0x40] = .error .noColour ∧ decode [0x50, 0x00] = .error .noColour ∧
      decode [0x80, 0x01] = .error .noPalette ∧ decode [0x90] = .error .noSelector := by decide
/-- `LEN` of section 2.4's rows `8F`, `DF` and `FF FF`. -/
theorem test_lengths :
    commandLen 0x8 (headerCount 0x8 15 0) = 35 ∧ commandLen 0xD (headerCount 0xD 15 0) = 98 ∧
      commandLen 0xF (headerCount 0xF 15 255) = 65538 := by decide
/-- A table word's second byte is its bits 15..8: `SKIP-long` with LF 2 and EXT 3. -/
theorem test_table_word : decodeTableWord 16 0x0312 = some (.skipLong 2 3) := by decide
/-- The operand bytes above a table word's bits are zero. -/
theorem test_table_word_operands : decodeTableWord 8 0x90 = some (.pal2Cache 0 0 [#v[0, 0]]) := by decide
/-- Section 1.4: `SKIPN 65536` is 16 copies of `1F FF`. -/
theorem test_skipN : (skipN 65536).flatMap encode = (List.replicate 16 [0x1F#8, 0xFF#8]).flatten := by decide +kernel
/-- R80: `FILL 4100, 7` is one full SOLID-long and a SOLID of 4 blocks. -/
theorem test_fillN : (fillN 4100 7).flatMap encode = [0x5F#8, 0xFF#8, 7, 0x43#8, 7] := by decide +kernel

/-! ### The unpackers, the curve and the cache: sections 2.2, 2.1 and 1.3 -/

theorem test_unpack1 : unpack1 #v[0x9C, 0x35] = #v[1, 0, 0, 1, 1, 1, 0, 0, 0, 0, 1, 1, 0, 1, 0, 1] := by decide
theorem test_unpack2 : unpack2 #v[0x1B, 0xE4, 0x00, 0xFF] = #v[0, 1, 2, 3, 3, 2, 1, 0, 0, 0, 0, 0, 3, 3, 3, 3] := by
  decide
theorem test_unpack3 :
    unpack3 #v[0x39, 0xC5, 0x47, 0xE2, 0xA8, 0xF1] = #v[1, 6, 3, 4, 2, 5, 0, 7, 7, 0, 5, 2, 4, 3, 6, 1] := by decide
theorem test_unpack3_straddle :
    (unpack3 #v[0x00, 0x01, 0x80, 0x00, 0x00, 0x00])[5] = 6 ∧ (unpack3 #v[0x01, 0x80, 0x00, 0x00, 0x00, 0x00])[2] = 3 := by
  decide
theorem test_pack3 :
    pack3 #v[0, 1, 2, 3, 4, 5, 6, 7, 7, 6, 5, 4, 3, 2, 1, 0] = #v[0x05, 0x39, 0x77, 0xFA, 0xC6, 0x88] := by decide
theorem test_geometry :
    geometryOf 1000 600 = { width := 1000, height := 600, bw := 250, bh := 150, nb := 37500, n := 256, ox := 3, oy := 53 } := by
  decide +kernel
/-- The 5 x 3 table of section 2.1. -/
theorem test_lut_5x3 : buildLut (geometryOf 17 9) = [5, 0, 1, 13, 14, 4, 3, 2, 12, 11, 6, 7, 8, 9, 10] := by
  decide +kernel
/-- The 1 x 5 table of section 2.1. -/
theorem test_lut_1x5 : buildLut (geometryOf 4 20) = [0, 1, 2, 4, 3] := by decide +kernel
/-- Section 1.3: 300 adds. -/
theorem test_cache_300 :
    let k := ((List.range 300).map fun m => #v[BitVec.ofNat 8 m, BitVec.ofNat 8 (m / 256)]).foldl Cache.add (Cache.zero 2)
    k.count = 256 ∧ k.head = some 43 := by decide +kernel

/-! ### One step of each command: section 2.5 and the examples of R145 to R162 -/

theorem test_skip : effect pair [0x00] = some (pair.bs, [0, 0], 1, 1) := by decide +kernel
theorem test_skip_overrun : failure single [0x01] = some ([2, 8, 0, 0], single.bs) := by decide +kernel
theorem test_skipLong : effect pair [0x10, 0x01] = some (pair.bs, [1, 1], 2, 2) := by decide +kernel
theorem test_skipLong_noExt : failure single [0x11] = some ([1, 1, 0, 0], single.bs) := by decide +kernel
theorem test_repeat : effect pairAtOne [0x20] = some ([flat 0x0B, flat 0x0B], [0, 2], 1, 2) := by decide +kernel
theorem test_repeat_atZero : failure single [0x20] = some ([2, 6, 0, 0], single.bs) := by decide +kernel
theorem test_repeatLong : effect pairAtOne [0x30, 0x00] = some ([flat 0x0B, flat 0x0B], [0, 3], 2, 2) := by
  decide +kernel
/-- TRUNC_EXT comes before REPEAT_AT_ZERO. -/
theorem test_repeatLong_noExt : failure single [0x31] = some ([1, 1, 0, 0], single.bs) := by decide +kernel
theorem test_solid : effect single [0x40, 0x07] = some ([flat 7], [4], 2, 1) := by decide +kernel
theorem test_solid_overrun : failure single [0x41, 0x00] = some ([2, 8, 0, 0], single.bs) := by decide +kernel
theorem test_solidLong : effect pair [0x50, 0x01, 0x99] = some ([flat 0x99, flat 0x99], [5, 5], 3, 2) := by
  decide +kernel
theorem test_solidLong_noColour : failure single [0x50, 0x00] = some ([1, 4, 0, 0], single.bs) := by decide +kernel
theorem test_solidSep : effect single [0x60, 0x5A] = some ([flat 0x5A], [6], 2, 1) := by decide +kernel
theorem test_solidSepLong : effect pair [0x70, 0x01, 0x5A] = some ([flat 0x5A, flat 0x5A], [7, 7], 3, 2) := by
  decide +kernel
/-- R155's example, with the cache slot it fills. -/
theorem test_pal2 :
    (after (decoding single [0x80, 0x10, 0x20, 0xA5, 0x0F])).map
        (fun t => (t.bs, t.cache2.slots[0], t.cache2.head, t.cache2.count, t.readPos)) =
      some ([#v[0x20, 0x10, 0x20, 0x10, 0x10, 0x20, 0x10, 0x20, 0x10, 0x10, 0x10, 0x10, 0x20, 0x20, 0x20, 0x20]],
        #v[0x10, 0x20], some 0, 1, 5) := by decide +kernel
/-- A failing PAL2 adds nothing. -/
theorem test_pal2_noData :
    (after (decoding single [0x80, 0x01, 0x02, 0x00])).map (fun t => (t.report.cause, t.cache2.count)) =
      some (5, 0) := by decide +kernel
/-- R156's example. -/
theorem test_pal2Cache :
    effect pairCached [0x90, 0x00, 0xFF, 0x00] =
      some ([#v[0x20, 0x20, 0x20, 0x20, 0x20, 0x20, 0x20, 0x20, 0x10, 0x10, 0x10, 0x10, 0x10, 0x10, 0x10, 0x10],
        flat 0x0C], [9, 0], 4, 1) := by decide +kernel
theorem test_pal2Cache_index : failure single [0x90, 0x00, 0x00, 0x00] = some ([2, 7, 0, 0], single.bs) := by
  decide +kernel
/-- R157's example. -/
theorem test_pal4 :
    effect single [0xA0, 1, 2, 3, 4, 0x1B, 0x1B, 0x1B, 0x1B] =
      some ([#v[1, 2, 3, 4, 1, 2, 3, 4, 1, 2, 3, 4, 1, 2, 3, 4]], [0xA], 9, 1) := by decide +kernel
/-- R158's example. -/
theorem test_pal4Cache :
    effect pairCached [0xB0, 0x00, 0xE4, 0xE4, 0xE4, 0xE4] =
      some ([#v[4, 3, 2, 1, 4, 3, 2, 1, 4, 3, 2, 1, 4, 3, 2, 1], flat 0x0C], [0xB, 0], 6, 1) := by decide +kernel
/-- R159's example. -/
theorem test_pal8 :
    effect single [0xC0, 0x00, 0x11, 0x22, 0x33, 0x44, 0x55, 0x66, 0x77, 0x05, 0x39, 0x77, 0xFA, 0xC6, 0x88] =
      some ([#v[0x00, 0x11, 0x22, 0x33, 0x44, 0x55, 0x66, 0x77, 0x77, 0x66, 0x55, 0x44, 0x33, 0x22, 0x11, 0x00]],
        [0xC], 15, 1) := by decide +kernel
/-- R160's example. -/
theorem test_pal8Cache :
    effect pairCached [0xD0, 0x00, 0xFF, 0xFF, 0xFF, 0x00, 0x00, 0x00] =
      some ([#v[0x77, 0x77, 0x77, 0x77, 0x77, 0x77, 0x77, 0x77, 0, 0, 0, 0, 0, 0, 0, 0], flat 0x0C], [0xD, 0], 8, 1) := by
  decide +kernel
/-- Section 1.1. -/
theorem test_raw : effect single ([0xE0] ++ (counting 1).toList) = some ([counting 1], [0xE], 17, 1) := by decide +kernel
/-- R216: block 1 is cut short before block 2's range is checked. -/
theorem test_raw_order :
    failure pair ([0xE2] ++ List.replicate 20 0) = some ([1, 5, 0, 0], pair.bs) ∧
      failure pair ([0xE2] ++ List.replicate 48 0) = some ([2, 8, 0, 0], pair.bs) := by decide +kernel
/-- R216 items 4 and 5: a step on data that is missing altogether, behind an invalid slot, a valid one, and the store's end. -/
theorem test_truncated_order :
    failure pairCached [0x90, 0x01] = some ([2, 7, 0, 0], pair.bs) ∧
      failure pairCached [0x90, 0x00] = some ([1, 5, 0, 0], pair.bs) ∧
      (after { decoding pairCached [0x90, 0x00] with blockPos := 2 }).map (fun t => t.report.cause) = some 8 := by
  decide +kernel
/-- R162's example. -/
theorem test_rawLong :
    effect pair ([0xF0, 0x01] ++ (flat 0).toList ++ (flat 0xFF).toList) =
      some ([flat 0, flat 0xFF], [0xF, 0xF], 34, 2) := by decide +kernel

/-! ### The end of a frame and the requests: sections 2.7 and 2.8 -/

/-- The frame of P3's start: the raster of two blocks side by side, the debug raster, and `(0, 0, L, block_pos)`. -/
theorem test_finish :
    (after { decoding pair [0x01] with readPos := 1, blockPos := 2, tags := [0xC, 0xD] }).map
        (fun t => (t.out.take 8, t.dbgOut.take 8, t.out.length, t.report)) =
      some ([0x0B, 0x0B, 0x0B, 0x0B, 0x0C, 0x0C, 0x0C, 0x0C], [12, 12, 12, 12, 13, 13, 13, 13], 32,
        { kind := 0, cause := 0, posRead := 1, posBlock := 2, cfg := .ready }) := by decide +kernel
theorem test_construct :
    (after { State.reset with requests := [.construct 9 5] }).map (fun t => (t.cfg, t.lut, t.report.cause)) =
      some (.ready, [1, 0, 5, 2, 3, 4], 0) := by decide +kernel
theorem test_construct_negative :
    (after { State.reset with requests := [.construct (-1) 4] }).map State.report =
      some { kind := 3, cause := 9, posRead := 0, posBlock := 0, cfg := .unconfigured } := by decide +kernel
theorem test_decode_unconfigured :
    (after { State.reset with requests := [.decodeFrame [0x00] false] }).map State.report =
      some { kind := 4, cause := 11, posRead := 0, posBlock := 0, cfg := .unconfigured } := by decide +kernel
/-- An instruction placed where the next step fetches it is the one that runs. -/
theorem test_withFetchWord :
    (after (State.reset.withFetchWord 8 0x0F)).map (fun t => (t.readPos, t.blockPos)) = some (1, 16) := by decide +kernel

/-! ### Witnesses: the hypotheses of each statement are met -/

theorem pair_configured : pair.Configured := by constructor <;> decide +kernel
theorem pairAtOne_configured : pairAtOne.Configured := by constructor <;> decide +kernel
theorem pairCached_configured : pairCached.Configured := by constructor <;> decide +kernel

theorem pair_inv : pair.Inv :=
  ⟨fun _ => rfl, fun _ => pair_configured, fun _ h => (by cases h), fun _ h => (by cases h), by decide⟩

/-- A well-formed command of 16 blocks, and the shortest RAW-long. -/
theorem witness_encoding :
    (Instr.pal8 15 #v[1, 2, 3, 4, 5, 6, 7, 8] (List.replicate 16 #v[1, 2, 3, 4, 5, 6])).wf = true ∧
      (Instr.rawLong 0 0 [flat 1]).wf = true := by decide

theorem witness_DecodedBytesAreTheEncoding : decode [0x43, 0x07, 0xFF] = .ok (.solid 3 7, [0xFF]) := by decide

theorem witness_EveryHeaderByteIsLegal : 65537 ≤ (List.replicate 65537 (0 : Byte)).length := by
  rw [List.length_replicate]

theorem witness_CacheAddWritesTheNextSlot :
    (Cache.zero 2).head = none ∧ ({ Cache.zero 2 with head := some 255, count := 256 } : Cache 2).head = some 255 ∧
      ((Cache.zero 2).add #v[1, 2]).head = some 0 := by decide +kernel

/-- One add more than the ring has slots. -/
theorem witness_SlotsHoldTheLatestAdds :
    List.replicate 257 (#v[1, 2] : Palette 2) ≠ [] ∧
      ((List.replicate 257 (#v[1, 2] : Palette 2)).foldl Cache.add (Cache.zero 2).reset).count = 256 := by decide +kernel

theorem witness_CacheStaysSound :
    (Cache.zero 4).Sound ∧ ({ Cache.zero 4 with head := some 254, count := 255 } : Cache 4).Sound ∧
      ({ Cache.zero 4 with head := some 3, count := 256 } : Cache 4).Sound := by decide +kernel

theorem witness_CachesChangeOnlyByTheirLiteral :
    (∃ t, exec (.pal2 0 #v[1, 2] [#v[0, 0]]) single = .next t ∧ t.cache2 ≠ single.cache2) ∧
      (∃ t, exec (.pal4 0 #v[1, 2, 3, 4] [#v[0, 0, 0, 0]]) single = .next t ∧ t.cache4 ≠ single.cache4) ∧
      ∃ t, exec (.pal8 0 #v[1, 2, 3, 4, 5, 6, 7, 8] [#v[0, 0, 0, 0, 0, 0]]) single = .next t ∧
        t.cache8 ≠ single.cache8 :=
  ⟨⟨_, rfl, fun h => absurd (congrArg Cache.count h) (by decide)⟩,
    ⟨_, rfl, fun h => absurd (congrArg Cache.count h) (by decide)⟩,
    ⟨_, rfl, fun h => absurd (congrArg Cache.count h) (by decide)⟩⟩

/-- The smallest frame, and one of a 3 x 2 grid. -/
theorem witness_geometry :
    (0 < 1 ∧ (geometryOf 1 1).bw = 1 ∧ (geometryOf 1 1).bh = 1) ∧ 0 < 9 ∧ 0 < 5 := by decide

theorem witness_HilbertIndexIsABijection :
    15 < 2 ^ 2 * 2 ^ 2 ∧ hilbertXY (2 ^ 2) 15 = hilbertXY (2 ^ 2) 15 ∧ 3 < 2 ^ 2 ∧ 0 < 2 ^ 0 * 2 ^ 0 := by decide

/-- The first and the last point of the curve inside the 3 x 2 grid. -/
theorem witness_CurveTableFollowsTheCurve :
    2 < 13 ∧ 8 < 13 ∧ 13 < (geometryOf 9 5).n * (geometryOf 9 5).n ∧
      (geometryOf 9 5).inside (hilbertXY (geometryOf 9 5).n 2) = true ∧
      (geometryOf 9 5).inside (hilbertXY (geometryOf 9 5).n 8) = true ∧
      (geometryOf 9 5).inside (hilbertXY (geometryOf 9 5).n 13) = true := by decide

/-- SKIP 2 and SKIP-long 2 end exactly at `NB`. -/
theorem witness_SkipCompletes :
    pair.Configured ∧ pair.blockPos + ((1 : Nibble).toNat + 1) = pair.geo.nb ∧
      pair.blockPos + (256 * (0 : Nibble).toNat + (1 : Byte).toNat + 1) = pair.geo.nb :=
  ⟨pair_configured, by decide, by decide⟩

theorem witness_RepeatCompletes :
    pairAtOne.Configured ∧ 0 < pairAtOne.blockPos ∧ pairAtOne.blockPos + ((0 : Nibble).toNat + 1) = pairAtOne.geo.nb ∧
      pairAtOne.blockPos + (256 * (0 : Nibble).toNat + (0 : Byte).toNat + 1) = pairAtOne.geo.nb :=
  ⟨pairAtOne_configured, by decide, by decide, by decide⟩

theorem witness_SolidShortCompletes :
    pair.Configured ∧ pair.blockPos + ((1 : Nibble).toNat + 1) = pair.geo.nb := ⟨pair_configured, by decide⟩

theorem witness_SolidLongCompletes :
    pair.Configured ∧ pair.blockPos + (256 * (0 : Nibble).toNat + (1 : Byte).toNat + 1) = pair.geo.nb :=
  ⟨pair_configured, by decide⟩

/-- Two groups on two blocks, for each of PAL2, PAL4 and PAL8. -/
theorem witness_literalsComplete :
    pair.Configured ∧ [(#v[0, 1] : Vector Byte 2), #v[2, 3]].length = (1 : Nibble).toNat + 1 ∧
      [(#v[0, 1, 2, 3] : Vector Byte 4), #v[2, 3, 4, 5]].length = (1 : Nibble).toNat + 1 ∧
      [(#v[0, 1, 2, 3, 4, 5] : Vector Byte 6), #v[2, 3, 4, 5, 6, 7]].length = (1 : Nibble).toNat + 1 ∧
      pair.blockPos + ((1 : Nibble).toNat + 1) = pair.geo.nb :=
  ⟨pair_configured, by decide, by decide, by decide, by decide⟩

/-- Slot 0, the last valid one of a cache that holds one palette, for each of the three cache references. -/
theorem witness_cacheReferencesComplete :
    pairCached.Configured ∧ (0 : Fin 256).val < pairCached.cache2.count ∧ (0 : Fin 256).val < pairCached.cache4.count ∧
      (0 : Fin 256).val < pairCached.cache8.count ∧
      [(#v[0, 1] : Vector Byte 2), #v[2, 3]].length = (1 : Nibble).toNat + 1 ∧
      [(#v[0, 1, 2, 3] : Vector Byte 4), #v[2, 3, 4, 5]].length = (1 : Nibble).toNat + 1 ∧
      [(#v[0, 1, 2, 3, 4, 5] : Vector Byte 6), #v[2, 3, 4, 5, 6, 7]].length = (1 : Nibble).toNat + 1 ∧
      pairCached.blockPos + ((1 : Nibble).toNat + 1) = pairCached.geo.nb :=
  ⟨pairCached_configured, by decide, by decide, by decide, by decide, by decide, by decide, by decide⟩

theorem witness_RawCompletes :
    pair.Configured ∧ [flat 1, flat 2].length = (1 : Nibble).toNat + 1 ∧
      pair.blockPos + ((1 : Nibble).toNat + 1) = pair.geo.nb ∧
      [flat 1, flat 2].length = 256 * (0 : Nibble).toNat + (1 : Byte).toNat + 1 ∧
      pair.blockPos + (256 * (0 : Nibble).toNat + (1 : Byte).toNat + 1) = pair.geo.nb :=
  ⟨pair_configured, by decide, by decide, by decide, by decide⟩

/-- One block too many, at position 0 and at position 1. -/
theorem witness_RangePastTheStoreRaises :
    pair.geo.nb < pair.blockPos + ((2 : Nibble).toNat + 1) ∧ pairAtOne.geo.nb < pairAtOne.blockPos + ((1 : Nibble).toNat + 1) ∧
      0 < pairAtOne.blockPos ∧ pair.geo.nb < pair.blockPos + (256 * (0 : Nibble).toNat + (2 : Byte).toNat + 1) ∧
      pairAtOne.geo.nb < pairAtOne.blockPos + (256 * (0 : Nibble).toNat + (1 : Byte).toNat + 1) := by decide

theorem witness_RepeatAtZeroRaises : pair.blockPos = 0 := rfl

/-- Slot 0 of an empty cache, and slot 1 of a cache that holds one palette. -/
theorem witness_InvalidSlotRaises :
    (pair.cache2.count ≤ (0 : Byte).toNat ∧ pair.cache4.count ≤ (0 : Byte).toNat ∧ pair.cache8.count ≤ (0 : Byte).toNat) ∧
      pairCached.cache2.count ≤ (1 : Byte).toNat ∧ pairCached.cache4.count ≤ (1 : Byte).toNat ∧
      pairCached.cache8.count ≤ (1 : Byte).toNat := by decide

/-- R216's two cases on `NB = 2`: three blocks asked, all groups there, and only one group there. -/
theorem witness_DataCommandsFailInOrder :
    (2 < (2 : Nibble).toNat + 1 ∧ (∀ i, i < 2 → pairCached.blockPos + i < pairCached.geo.nb ∧ i < 3) ∧
        pairCached.geo.nb ≤ pairCached.blockPos + 2) ∧
      (1 < (2 : Nibble).toNat + 1 ∧ (∀ i, i < 1 → pairCached.blockPos + i < pairCached.geo.nb ∧ i < 1) ∧
        pairCached.blockPos + 1 < pairCached.geo.nb ∧ 1 ≤ 1) ∧
      (0 : Byte).toNat < pairCached.cache2.count ∧ (0 : Byte).toNat < pairCached.cache4.count ∧
      (0 : Byte).toNat < pairCached.cache8.count := by decide

/-- The clause of DataCommandsFailInOrder about a step, at the two RAW commands of R216's example, and at a cache reference
to a valid slot whose head is there and whose data is not. -/
theorem witness_DataCommandsFailInOrder_step :
    (∀ bytes : List Byte, (decoding pairCached bytes).frame = some { input := bytes, debug := true } ∧
      bytes.drop (decoding pairCached bytes).readPos = bytes) ∧
      (∀ bytes ∈ [0xE2 :: List.replicate 20 0, 0xE2 :: List.replicate 48 0, [0x90, 0x00]],
        0 < perBlock (headerTag (bytes.getD 0 0)) ∧ headLen (headerTag (bytes.getD 0 0)) ≤ bytes.length ∧
          pairCached.slotRefused bytes = false) ∧
      groupsThere (0xE2 :: List.replicate 20 0) = 1 ∧ groupsThere (0xE2 :: List.replicate 48 0) = 3 :=
  ⟨fun _ => ⟨rfl, rfl⟩, by decide, by decide, by decide⟩

/-- A configured state in which a literal palette command of two blocks commits, ending exactly at `NB`. -/
theorem witness_CommandsCommitWholeOrNotAtAll :
    pair.Configured ∧ pair.blockPos + (Instr.pal2 1 #v[1, 2] [#v[0, 1], #v[2, 3]]).count = pair.geo.nb ∧
      ∃ t, exec (.pal2 1 #v[1, 2] [#v[0, 1], #v[2, 3]]) pair = .next t ∧ t.blockPos = 2 :=
  ⟨pair_configured, by decide, _, rfl, by decide⟩

theorem witness_StepRunsTheDecodedCommand :
    (decoding single [0x40, 0x07]).frame = some { input := [0x40, 0x07], debug := true } ∧
      decode (List.drop (decoding single [0x40, 0x07]).readPos [0x40, 0x07]) = .ok (.solid 0 7, []) := by decide

/-- Each clause, one byte short: EXT, the colour of a short and of a long command, a selector, and three palettes. -/
theorem witness_MissingFixedBytesRaise :
    (∀ input : List Byte, (decoding single input).frame = some { input := input, debug := true } ∧
      input.drop (decoding single input).readPos = input) ∧
      isLong (headerTag 0x1F) = true ∧ (headerTag 0x40 = 0x4#4 ∧ headerTag 0x60 = 0x6#4) ∧
      (headerTag 0x50 = 0x5#4 ∧ headerTag 0x70 = 0x7#4 ∧ ([0] : List Byte).length = 1) ∧
      (headerTag 0x90 = 0x9#4 ∧ headerTag 0xB0 = 0xB#4 ∧ headerTag 0xD0 = 0xD#4) ∧
      (headerTag 0x80 = 0x8#4 ∧ (List.replicate 1 (0 : Byte)).length < 2) ∧
      (headerTag 0xA0 = 0xA#4 ∧ (List.replicate 3 (0 : Byte)).length < 4) ∧
      (headerTag 0xC0 = 0xC#4 ∧ (List.replicate 7 (0 : Byte)).length < 8) :=
  ⟨fun _ => ⟨rfl, rfl⟩, by decide, by decide, by decide, by decide, by decide, by decide, by decide⟩

/-- Cut-short commands on `NB = 2`, each with the cause that R216 gives it: no EXT; no colour; one palette byte; no slot
byte; an invalid slot before its missing data; a valid slot without data; RAW one byte short of its last block, inside the
store; RAW short of its last block with one group there (R216's own words), and with the store ending first. -/
theorem witness_TruncatedCommandNeverCommits :
    (∀ bytes : List Byte, (decoding pairCached bytes).frame = some { input := bytes, debug := true } ∧
      bytes.drop (decoding pairCached bytes).readPos = bytes) ∧
      ∀ case ∈ ([
          ([0x1F], .truncExt), ([0xF0], .truncExt), ([0x50, 0x00], .truncColor), ([0x80, 0x01], .truncPalette),
          ([0xB0], .truncSelector), ([0xD0, 0x01, 0x00], .cacheIndex), ([0xD0, 0x00, 0x00], .truncBlockdata),
          (0xE1 :: List.replicate 31 0, .truncBlockdata), (0xE2 :: List.replicate 20 0, .truncBlockdata),
          (0xE2 :: List.replicate 47 0, .blockOverrun)] : List (List Byte × Cause)),
        (decoding pairCached case.1).readPos < case.1.length ∧ case.1.length < commandLenAt case.1 ∧
          (decoding pairCached case.1).truncatedCause case.1 = case.2 :=
  ⟨fun _ => ⟨rfl, rfl⟩, by decide⟩

/-- The end of a frame of one SKIP that leaves block 1 uncovered, with the debug flag and without it. -/
theorem witness_frameEnd (debug : Bool) :
    let s : State := { decoding pair [0x00] debug with readPos := 1, blockPos := 1 }
    s.Configured ∧ s.frame = some { input := [0x00], debug := debug } ∧ s.readPos = ([0x00] : List Byte).length ∧
      s.blockPos < s.geo.nb ∧ s.params.hasDebug = true :=
  ⟨by cases debug <;> constructor <;> decide +kernel, rfl, rfl, by decide +revert, rfl⟩

/-- The last pixel of the frame, and a debug channel that does not exist. -/
theorem witness_frameEnd_clauses :
    7 < pair.geo.width ∧ 3 < pair.geo.height ∧
      ({ pair with params := { pair.params with hasDebug := false }, tags := [] } : State).Configured :=
  ⟨by decide, by decide, by constructor <;> decide +kernel⟩

theorem witness_FrameKeepsItsConfiguration :
    ∃ t, (decoding single [0x40, 0x07]).frame = some { input := [0x40, 0x07], debug := true } ∧
      step (decoding single [0x40, 0x07]) = .next t := ⟨_, rfl, rfl⟩

theorem witness_PassTerminates :
    (decoding single []).frame = some { input := [], debug := true } := rfl

/-- A frame of one SKIP over the whole grid, after a frame whose image is in OUT. -/
theorem witness_SkipFrameKeepsTheImage :
    let s : State := { pair with requests := [.decodeFrame [0x01] false], out := pair.raster pair.pixel }
    s.Inv ∧ s.cfg = .ready ∧ s.frame = none ∧ s.requests = [.decodeFrame ([Instr.skip 1].flatMap encode) false] ∧
      (∀ i ∈ [Instr.skip 1], i.isSkip = true) ∧ ([Instr.skip 1].map Instr.count).sum = s.geo.nb ∧
      withinBound ([Instr.skip 1].flatMap encode).length s.params.maxInputBytes ∧ s.out = s.raster s.pixel :=
  ⟨⟨fun _ => rfl, fun _ => by constructor <;> decide +kernel, fun _ h => (by cases h), fun _ h => (by cases h), by decide⟩,
    rfl, rfl, by decide, by decide, by decide, rfl, by decide +kernel⟩

/-- Input exactly at its bound. -/
theorem witness_AdmittedFrameStartsFresh :
    let s : State := { pair with
      params := { pair.params with maxInputBytes := some 1 }, requests := [.decodeFrame [0x01] true] }
    s.frame = none ∧ s.cfg = .ready ∧ s.requests = [.decodeFrame [0x01] true] ∧
      withinBound ([0x01] : List Byte).length s.params.maxInputBytes := ⟨rfl, rfl, rfl, by decide⟩

theorem witness_UnconfiguredDecodeIsRefused :
    let s : State := { State.reset with requests := [.decodeFrame [] false] }
    s.frame = none ∧ s.cfg = .unconfigured ∧ s.requests = [.decodeFrame [] false] := ⟨rfl, rfl, rfl⟩

/-- Input one byte past its bound, and no bound. -/
theorem witness_TooLongInputIsRefused :
    (let s : State := { pair with
      params := { pair.params with maxInputBytes := some 1 }, requests := [.decodeFrame [0, 0] true] }
    s.frame = none ∧ s.cfg = .ready ∧ s.requests = [.decodeFrame [0, 0] true] ∧ s.params.maxInputBytes = some 1 ∧
      1 < ([0, 0] : List Byte).length) ∧ pair.params.maxInputBytes = none := ⟨⟨rfl, rfl, rfl, rfl, by decide⟩, rfl⟩

/-- A geometry exactly at its bounds. -/
theorem witness_ConstructConfigures :
    let s : State := { State.reset with
      params := { State.reset.params with maxWidth := some 9, maxHeight := some 5 }, requests := [.construct 9 5] }
    s.frame = none ∧ s.requests = [.construct ((9 : Nat) : Int) ((5 : Nat) : Int)] ∧ 0 < 9 ∧ 0 < 5 ∧
      withinBound 9 s.params.maxWidth ∧ withinBound 5 s.params.maxHeight :=
  ⟨rfl, rfl, by decide, by decide, by decide, by decide⟩

/-- A size of 0, and a size one past its bound while the other size has no bound, for each of the two sizes. -/
theorem witness_BadGeometryIsRefused :
    let s : State := { State.reset with requests := [.construct 0 5] }
    let u : State := { State.reset with
      params := { State.reset.params with maxWidth := some 9 }, requests := [.construct 10 5] }
    let v : State := { State.reset with
      params := { State.reset.params with maxHeight := some 5 }, requests := [.construct 10 6] }
    (s.frame = none ∧ s.requests = [.construct 0 5] ∧ (0 : Int) ≤ 0) ∧
      (u.frame = none ∧ u.requests = [.construct 10 5] ∧ (0 : Int) < 10 ∧ (0 : Int) < 5 ∧
        u.params.maxHeight = none ∧ u.params.maxWidth = some 9 ∧ (10 : Int) > (9 : Nat)) ∧
      v.frame = none ∧ v.requests = [.construct 10 6] ∧ (0 : Int) < 6 ∧
        v.params.maxWidth = none ∧ v.params.maxHeight = some 5 ∧ (6 : Int) > (5 : Nat) :=
  ⟨⟨rfl, rfl, by decide⟩, ⟨rfl, rfl, by decide, by decide, rfl, rfl, by decide⟩, rfl, rfl, by decide, rfl, rfl, by decide⟩

/-- DESTROY on a READY and on an UNCONFIGURED instance. -/
theorem witness_DestroyReleases :
    ({ pair with requests := [.destroy] } : State).frame = none ∧
      ({ pair with requests := [.destroy] } : State).requests = [.destroy] ∧
      ({ State.reset with requests := [.destroy] } : State).requests = [.destroy] ∧
      State.reset.cfg = .unconfigured := ⟨rfl, rfl, rfl, rfl⟩

/-- READ_STATUS, RESET, and nothing to do. -/
theorem witness_requests :
    (({ pair with requests := [.readStatus] } : State).frame = none ∧
      ({ pair with requests := [.readStatus] } : State).requests = [.readStatus]) ∧
    (({ pair with requests := [.reset] } : State).frame = none ∧
      ({ pair with requests := [.reset] } : State).requests = [.reset]) ∧ pair.frame = none ∧ pair.requests = [] :=
  ⟨⟨rfl, rfl⟩, ⟨rfl, rfl⟩, rfl, rfl⟩

theorem witness_InvariantKeptByEveryStep : pair.Inv ∧ step pair = .next pair := ⟨pair_inv, rfl⟩

/-- Two different states that differ only in the debug flag of their frame. -/
theorem witness_DebugChannelNeverAltersOutput :
    (decoding single [0x00] true).eraseDebug = (decoding single [0x00] false).eraseDebug ∧
      (decoding single [0x00] true).frame ≠ (decoding single [0x00] false).frame := ⟨rfl, by decide⟩

end Sys2Proof.Tests
end

section
/-! PROOFS. The geometry of an instance (spec/00_scope.md R8, spec/40_curve_builder.md R100): `enclosingSide` is
`2 ^ Nat.clog 2`, so Mathlib's Galois connection between `clog` and powers gives the minimality of `N`. -/

namespace Sys2Proof.Machine

/-- Doubling from a power of two below the exponent `clog 2 m` ends exactly at that exponent, given fuel to reach it. -/
theorem growSide_two_pow {fuel m k : Nat} (below : k ≤ Nat.clog 2 m) (reach : Nat.clog 2 m ≤ k + fuel) :
    growSide fuel m (2 ^ k) = 2 ^ Nat.clog 2 m := by
  induction fuel generalizing k with
  | zero => rw [growSide, show k = Nat.clog 2 m by omega]
  | succ fuel ih =>
    rw [growSide]
    split
    case isTrue covered =>
      have : Nat.clog 2 m ≤ k := Nat.clog_le_of_le_pow covered
      rw [show k = Nat.clog 2 m by omega]
    case isFalse short =>
      have : k < Nat.clog 2 m := (Nat.lt_clog_iff_pow_lt one_lt_two).2 (by omega)
      rw [← Nat.pow_succ']
      exact ih (by omega) (by omega)

/-- The second form of `N` in R100. -/
theorem enclosingSide_eq_two_pow_clog (m : Nat) : enclosingSide m = 2 ^ Nat.clog 2 m :=
  have enoughFuel : Nat.clog 2 m ≤ 0 + m := by
    rw [Nat.zero_add]
    exact Nat.clog_le_of_le_pow Nat.lt_two_pow_self.le
  growSide_two_pow (k := 0) (Nat.zero_le _) enoughFuel

theorem enclosingSide_is_least_two_pow (m : Nat) :
    ∃ k, enclosingSide m = 2 ^ k ∧ m ≤ 2 ^ k ∧ ∀ j, m ≤ 2 ^ j → k ≤ j :=
  ⟨Nat.clog 2 m, enclosingSide_eq_two_pow_clog m, Nat.le_pow_clog one_lt_two m, fun _ => Nat.clog_le_of_le_pow⟩

@[simp] theorem enclosingSide_one : enclosingSide 1 = 1 := by simp [enclosingSide_eq_two_pow_clog]

@[simp] theorem geometryOf_n (w h : Nat) :
    (geometryOf w h).n = enclosingSide (max (geometryOf w h).bw (geometryOf w h).bh) := rfl

theorem geometryOf_bw_is_ceil (w h : Nat) : w ≤ 4 * (geometryOf w h).bw ∧ 4 * (geometryOf w h).bw < w + 4 := by
  simp only [geometryOf]
  omega

theorem geometryOf_bh_is_ceil (w h : Nat) : h ≤ 4 * (geometryOf w h).bh ∧ 4 * (geometryOf w h).bh < h + 4 := by
  simp only [geometryOf]
  omega

/-- A frame of a single block has a square of side 1 (the case `K = 0` of R100). -/
theorem geometryOf_n_of_single_block {w h : Nat} (hbw : (geometryOf w h).bw = 1) (hbh : (geometryOf w h).bh = 1) :
    (geometryOf w h).n = 1 := by
  simp [hbw, hbh]

/-- Settles O15: the side is the power of two at `clog 2 (max BW BH)`; the other registers are their formulas of R8. -/
theorem geometryIsDerived : Obligations.GeometryIsDerived := by
  intro w h _ _
  refine ⟨rfl, rfl, geometryOf_bw_is_ceil w h, geometryOf_bh_is_ceil w h, rfl, ?side, rfl, rfl,
    geometryOf_n_of_single_block⟩
  case side => exact enclosingSide_is_least_two_pow _

end Sys2Proof.Machine
end

section
/-! PROOFS. The curve table (spec/40_curve_builder.md R103 to R106). The loop of HilbertXY reaches every point of the
square, so by counting it meets each of them once; BuildLUT then meets every raster index once, and the table it writes
is the inverse of that order of the indices. -/

namespace Sys2Proof.Machine

/-! ### HilbertXY reaches every point of the square -/

theorem hilbertLoop_of_lt {n i : Nat} (h : n < i) (fuel t : Nat) (p : Nat × Nat) : hilbertLoop n fuel i t p = p := by
  cases fuel with
  | zero => rfl
  | succ fuel => simp [hilbertLoop, h]

theorem hilbertLoop_of_le {n i : Nat} (h : i ≤ n) (fuel t : Nat) (p : Nat × Nat) :
    hilbertLoop n (fuel + 1) i t p = hilbertLoop n fuel (i * 2) (t / 4) (hilbertTransform (t % 4) (i / 2) p) := by
  simp [hilbertLoop, h]

theorem hilbertBase_surj {x y : Nat} (hx : x < 2) (hy : y < 2) : ∃ d < 4, hilbertBase d = (x, y) := by
  interval_cases x <;> interval_cases y
  · exact ⟨0, by decide, rfl⟩
  · exact ⟨1, by decide, rfl⟩
  · exact ⟨3, by decide, rfl⟩
  · exact ⟨2, by decide, rfl⟩

/-- The four digit transforms fill the four quadrants of the square of side `2 * h` (R103). -/
theorem hilbertTransform_surj {h x y : Nat} (hx : x < 2 * h) (hy : y < 2 * h) :
    ∃ d < 4, ∃ u < h, ∃ v < h, hilbertTransform d h (u, v) = (x, y) := by
  by_cases left : x < h <;> by_cases lower : y < h
  · exact ⟨0, by decide, y, lower, x, left, rfl⟩
  · exact ⟨1, by decide, x, left, y - h, by omega, by simp only [hilbertTransform, Prod.mk.injEq, true_and]; omega⟩
  · exact ⟨3, by decide, h - 1 - y, by omega, 2 * h - 1 - x, by omega,
      by simp only [hilbertTransform, Prod.mk.injEq]; omega⟩
  · exact ⟨2, by decide, x - h, by omega, y - h, by omega, by simp only [hilbertTransform, Prod.mk.injEq]; omega⟩

/-- From the square of side `h`, the `m` turns that are left reach every point of the square of side `h * 2 ^ m`. -/
theorem hilbertLoop_surj {m h fuel x y : Nat} (pos : 0 < h) (enough : m ≤ fuel)
    (hx : x < h * 2 ^ m) (hy : y < h * 2 ^ m) :
    ∃ t < 4 ^ m, ∃ u < h, ∃ v < h, hilbertLoop (h * 2 ^ m) fuel (h * 2) t (u, v) = (x, y) := by
  induction m generalizing h fuel with
  | zero =>
    rw [pow_zero, mul_one] at hx hy
    rw [pow_zero, pow_zero, mul_one]
    exact ⟨0, by decide, x, hx, y, hy, hilbertLoop_of_lt (by omega) ..⟩
  | succ m ih =>
    obtain ⟨fuel, rfl⟩ : ∃ f, fuel = f + 1 := ⟨fuel - 1, by omega⟩
    have side : h * 2 ^ (m + 1) = h * 2 * 2 ^ m := by ring
    have more : h * 2 ≤ h * 2 * 2 ^ m := Nat.le_mul_of_pos_right _ (by positivity)
    rw [side] at hx hy ⊢
    obtain ⟨t, ht, x', hx', y', hy', rest⟩ := ih (fuel := fuel) (by omega) (by omega) hx hy
    obtain ⟨d, hd, u, hu, v, hv, turn⟩ := hilbertTransform_surj (h := h) (x := x') (y := y') (by omega) (by omega)
    refine ⟨4 * t + d, by rw [pow_succ]; omega, u, hu, v, hv, ?_⟩
    have digit : (4 * t + d) % 4 = d := by omega
    have higher : (4 * t + d) / 4 = t := by omega
    rw [hilbertLoop_of_le more, digit, higher, Nat.mul_div_cancel _ two_pos, turn, rest]

/-- The surjectivity of R105. -/
theorem hilbertXY_surj {k x y : Nat} (hx : x < 2 ^ k) (hy : y < 2 ^ k) :
    ∃ t < 2 ^ k * 2 ^ k, hilbertXY (2 ^ k) t = (x, y) := by
  cases k with
  | zero =>
    obtain ⟨rfl, rfl⟩ : x = 0 ∧ y = 0 := by omega
    exact ⟨0, by decide, rfl⟩
  | succ m =>
    have enough : m ≤ 2 ^ (m + 1) := by have := (m + 1).lt_two_pow_self; omega
    rw [pow_succ'] at hx hy enough ⊢
    obtain ⟨t, ht, u, hu, v, hv, climb⟩ := hilbertLoop_surj two_pos enough hx hy
    obtain ⟨d, hd, base⟩ := hilbertBase_surj hu hv
    have square : 2 * 2 ^ m * (2 * 2 ^ m) = 4 * 4 ^ m := by rw [show 4 = 2 * 2 from rfl, mul_pow]; ring
    refine ⟨4 * t + d, by omega, ?_⟩
    have digit : (4 * t + d) % 4 = d := by omega
    have higher : (4 * t + d) / 4 = t := by omega
    rw [hilbertXY, digit, higher, base]
    exact climb

/-- R105 as lists: the curve meets every point of the square, and there are as many indices as points. -/
theorem hilbertXY_points_perm (k : Nat) :
    ((List.range (2 ^ k * 2 ^ k)).map (hilbertXY (2 ^ k))).Perm (List.range (2 ^ k) ×ˢ List.range (2 ^ k)) := by
  have reached : List.range (2 ^ k) ×ˢ List.range (2 ^ k) ⊆ (List.range (2 ^ k * 2 ^ k)).map (hilbertXY (2 ^ k)) := by
    rintro ⟨x, y⟩ hp
    obtain ⟨hx, hy⟩ := List.pair_mem_product.1 hp
    obtain ⟨t, ht, hxy⟩ := hilbertXY_surj (List.mem_range.1 hx) (List.mem_range.1 hy)
    exact List.mem_map.2 ⟨t, List.mem_range.2 ht, hxy⟩
  have square : (List.range (2 ^ k) ×ˢ List.range (2 ^ k)).Nodup := List.nodup_range.product List.nodup_range
  exact ((square.subperm reached).perm_of_length_le (by simp [List.length_product])).symm

/-! ### The raster indices in the order in which the curve meets them -/

theorem Geometry.inside_iff (g : Geometry) (p : Nat × Nat) :
    g.inside p = true ↔ g.ox ≤ p.1 ∧ p.1 < g.ox + g.bw ∧ g.oy ≤ p.2 ∧ p.2 < g.oy + g.bh := by
  rw [Geometry.inside, decide_eq_true_iff]

theorem Geometry.rasterOf_mod {g : Geometry} {p : Nat × Nat} (h : g.inside p = true) :
    g.rasterOf p % g.bw = p.1 - g.ox := by
  rw [Geometry.inside_iff] at h
  rw [Geometry.rasterOf, Nat.add_mul_mod_self_right, Nat.mod_eq_of_lt (by omega)]

theorem Geometry.rasterOf_div {g : Geometry} {p : Nat × Nat} (h : g.inside p = true) :
    g.rasterOf p / g.bw = p.2 - g.oy := by
  rw [Geometry.inside_iff] at h
  rw [Geometry.rasterOf, Nat.add_mul_div_right _ _ (by omega), Nat.div_eq_of_lt (by omega), Nat.zero_add]

theorem Geometry.rasterOf_lt {g : Geometry} {p : Nat × Nat} (h : g.inside p = true) :
    g.rasterOf p < g.bw * g.bh := by
  have row := g.rasterOf_div h
  rw [Geometry.inside_iff] at h
  rw [mul_comm, ← Nat.div_lt_iff_lt_mul (by omega), row]
  omega

/-- Column and row of a point of the grid are the remainder and the quotient of its raster index by BW. -/
theorem Geometry.rasterOf_inj {g : Geometry} {p q : Nat × Nat} (hp : g.inside p = true) (hq : g.inside q = true)
    (same : g.rasterOf p = g.rasterOf q) : p = q := by
  have column : p.1 - g.ox = q.1 - g.ox := by rw [← g.rasterOf_mod hp, ← g.rasterOf_mod hq, same]
  have row : p.2 - g.oy = q.2 - g.oy := by rw [← g.rasterOf_div hp, ← g.rasterOf_div hq, same]
  rw [Geometry.inside_iff] at hp hq
  exact Prod.ext (by omega) (by omega)

/-- The point of the grid that has raster index `r` (R101 and R108). -/
theorem Geometry.exists_rasterOf_eq {g : Geometry} {r : Nat} (h : r < g.bw * g.bh) :
    ∃ p, g.inside p = true ∧ g.rasterOf p = r := by
  have wide : 0 < g.bw := Nat.pos_of_mul_pos_right (Nat.zero_lt_of_lt h)
  have column : r % g.bw < g.bw := Nat.mod_lt _ wide
  have row : r / g.bw < g.bh := Nat.div_lt_of_lt_mul h
  refine ⟨(g.ox + r % g.bw, g.oy + r / g.bw), (g.inside_iff _).2
    ⟨Nat.le_add_right .., Nat.add_lt_add_left column _, Nat.le_add_right .., Nat.add_lt_add_left row _⟩, ?_⟩
  simp only [Geometry.rasterOf, Nat.add_sub_cancel_left]
  exact Nat.mod_add_div' r g.bw

/-- The raster indices of the grid's points among the Hilbert indices `ts`, in the order of `ts`: what BuildLUT meets. -/
def Geometry.cellsMet (g : Geometry) (ts : List Nat) : List Nat :=
  ((ts.map (hilbertXY g.n)).filter g.inside).map g.rasterOf

theorem Geometry.cellsMet_cons_of_inside {g : Geometry} {t : Nat} (h : g.inside (hilbertXY g.n t) = true)
    (ts : List Nat) : g.cellsMet (t :: ts) = g.rasterOf (hilbertXY g.n t) :: g.cellsMet ts := by
  simp [Geometry.cellsMet, h]

theorem Geometry.cellsMet_cons_of_not_inside {g : Geometry} {t : Nat} (h : ¬ g.inside (hilbertXY g.n t) = true)
    (ts : List Nat) : g.cellsMet (t :: ts) = g.cellsMet ts := by
  simp [Geometry.cellsMet, h]

/-- "Every grid cell is met exactly once" (R106), for a grid that fits in a square whose side is a power of two. -/
theorem Geometry.cellsMet_perm_range {g : Geometry} (side : ∃ k, g.n = 2 ^ k) (fitsX : g.ox + g.bw ≤ g.n)
    (fitsY : g.oy + g.bh ≤ g.n) : (g.cellsMet (List.range (g.n * g.n))).Perm (List.range (g.bw * g.bh)) := by
  have points : ((List.range (g.n * g.n)).map (hilbertXY g.n)).Perm (List.range g.n ×ˢ List.range g.n) := by
    obtain ⟨k, hk⟩ := side
    rw [hk]
    exact hilbertXY_points_perm k
  have once : ((List.range (g.n * g.n)).map (hilbertXY g.n)).Nodup :=
    points.nodup_iff.2 (List.nodup_range.product List.nodup_range)
  have cellsOnce : (g.cellsMet (List.range (g.n * g.n))).Nodup :=
    (once.filter _).map_on fun _ hp _ hq => g.rasterOf_inj (List.mem_filter.1 hp).2 (List.mem_filter.1 hq).2
  rw [List.perm_ext_iff_of_nodup cellsOnce List.nodup_range]
  intro r
  rw [Geometry.cellsMet, List.mem_map, List.mem_range]
  constructor
  · rintro ⟨p, hp, rfl⟩
    exact g.rasterOf_lt (List.mem_filter.1 hp).2
  · intro hr
    obtain ⟨p, inside, raster⟩ := g.exists_rasterOf_eq hr
    refine ⟨p, List.mem_filter.2 ⟨points.mem_iff.2 ?_, inside⟩, raster⟩
    rw [Geometry.inside_iff] at inside
    exact List.pair_mem_product.2 ⟨List.mem_range.2 (by omega), List.mem_range.2 (by omega)⟩

/-! ### The table BuildLUT writes -/

/-- Write `seq`, `seq + 1`, ... into the table at the indices `rs`: BuildLUT without its stopping condition. -/
def numberFrom : Nat → List Nat → List Nat → List Nat
  | _, [], lut => lut
  | seq, r :: rs, lut => numberFrom (seq + 1) rs (lut.set r seq)

/-- The stopping condition of BuildLUT cuts nothing off while at most NB cells are met (R104). -/
theorem placeBlocks_eq_numberFrom {g : Geometry} {ts : List Nat} {seq : Nat}
    (room : seq + (g.cellsMet ts).length ≤ g.nb) (lut : List Nat) :
    placeBlocks g ts seq lut = numberFrom seq (g.cellsMet ts) lut := by
  induction ts generalizing seq lut with
  | nil => rfl
  | cons t ts ih =>
    by_cases inside : g.inside (hilbertXY g.n t) = true
    · rw [g.cellsMet_cons_of_inside inside] at *
      rw [List.length_cons] at room
      simp only [placeBlocks, inside, if_true, numberFrom]
      split
      case isTrue last =>
        have noneLeft : g.cellsMet ts = [] := List.eq_nil_of_length_eq_zero (by omega)
        rw [noneLeft, numberFrom]
      case isFalse => exact ih (by omega) _
    · rw [g.cellsMet_cons_of_not_inside inside] at *
      rw [placeBlocks, if_neg inside]
      exact ih room lut

@[simp] theorem numberFrom_length (seq : Nat) (rs lut : List Nat) : (numberFrom seq rs lut).length = lut.length := by
  induction rs generalizing seq lut with
  | nil => rfl
  | cons r rs ih => simp [numberFrom, ih]

theorem numberFrom_getElem?_of_notMem {r : Nat} {rs : List Nat} (h : r ∉ rs) (seq : Nat) (lut : List Nat) :
    (numberFrom seq rs lut)[r]? = lut[r]? := by
  induction rs generalizing seq lut with
  | nil => rfl
  | cons q rs ih =>
    obtain ⟨ne, notMem⟩ := not_or.1 (List.mem_cons.not.1 h)
    rw [numberFrom, ih notMem, List.getElem?_set_ne (Ne.symm ne)]

/-- At distinct indices no number is overwritten: the index met in place `i` holds `seq + i`. -/
theorem numberFrom_getElem? {rs lut : List Nat} (once : rs.Nodup) (inTable : ∀ r ∈ rs, r < lut.length)
    (seq : Nat) {i r : Nat} (met : rs[i]? = some r) : (numberFrom seq rs lut)[r]? = some (seq + i) := by
  induction rs generalizing seq lut i with
  | nil => cases met
  | cons q rs ih =>
    obtain ⟨fresh, once⟩ := List.nodup_cons.1 once
    rw [List.forall_mem_cons] at inTable
    rw [numberFrom]
    cases i with
    | zero =>
      obtain rfl : q = r := Option.some.inj met
      rw [numberFrom_getElem?_of_notMem fresh, List.getElem?_set_self inTable.1, Nat.add_zero]
    | succ i =>
      rw [ih once (by simpa using inTable.2) _ met, Nat.succ_add_eq_add_succ]

/-- Numbering a table at a permutation of its indices leaves in it every number once. -/
theorem numberFrom_perm_range {rs lut : List Nat} (order : rs.Perm (List.range lut.length)) :
    (numberFrom 0 rs lut).Perm (List.range lut.length) := by
  have once : rs.Nodup := order.nodup_iff.2 List.nodup_range
  have inTable : ∀ r ∈ rs, r < lut.length := fun r hr => List.mem_range.1 (order.subset hr)
  have written : List.range lut.length ⊆ numberFrom 0 rs lut := by
    intro i hi
    have place : i < rs.length := by simpa [order.length_eq] using hi
    have entry := numberFrom_getElem? once inTable 0 (List.getElem?_eq_getElem place)
    rw [Nat.zero_add] at entry
    exact List.mem_of_getElem? entry
  exact ((List.nodup_range.subperm written).perm_of_length_le (by simp)).symm

/-! ### The table of a derived geometry -/

/-- The centred grid of R101 fits in the square of R100, so the curve meets each of its NB cells once. -/
theorem geometryOf_cellsMet_perm_range (w h : Nat) :
    ((geometryOf w h).cellsMet (List.range ((geometryOf w h).n * (geometryOf w h).n))).Perm
      (List.range (geometryOf w h).nb) := by
  obtain ⟨k, side, covers, -⟩ := enclosingSide_is_least_two_pow (max (geometryOf w h).bw (geometryOf w h).bh)
  rw [← geometryOf_n] at side
  have fits : max (geometryOf w h).bw (geometryOf w h).bh ≤ (geometryOf w h).n := side ▸ covers
  have ox : (geometryOf w h).ox = ((geometryOf w h).n - (geometryOf w h).bw) / 2 := rfl
  have oy : (geometryOf w h).oy = ((geometryOf w h).n - (geometryOf w h).bh) / 2 := rfl
  exact Geometry.cellsMet_perm_range ⟨k, side⟩ (by omega) (by omega)

/-- The table numbers the raster indices in the order in which the curve meets them (R104). -/
theorem buildLut_geometryOf (w h : Nat) :
    buildLut (geometryOf w h) = numberFrom 0
      ((geometryOf w h).cellsMet (List.range ((geometryOf w h).n * (geometryOf w h).n)))
      (List.replicate (geometryOf w h).nb 0) :=
  placeBlocks_eq_numberFrom (by rw [(geometryOf_cellsMet_perm_range w h).length_eq, List.length_range, Nat.zero_add]) _

/-- Settles O17: every cell of the grid is met exactly once, and numbering the table in that order gives each number a
cell. -/
theorem curveTableIsAPermutation : Obligations.CurveTableIsAPermutation := by
  intro w h _ _
  have table := numberFrom_perm_range (lut := List.replicate (geometryOf w h).nb 0)
    (by simpa using geometryOf_cellsMet_perm_range w h)
  rw [buildLut_geometryOf]
  simpa using table

end Sys2Proof.Machine
end

section
/-! PROOFS. The bit unpackers (spec/41_unpackers.md). R126 gives the reason for both round trips: the bits of the packed
bytes are exactly the bits of the 16 lanes. So every statement goes through `streamBit`, the bit string of a sequence of
words: packing and unpacking leave it unchanged, and it determines the words. -/

namespace Sys2Proof

/-! ### The bit string of a sequence of words -/

section
variable {w w' n n' : Nat}

/-- Bit `p` of `v[0] ‖ v[1] ‖ ...`, counted from the most significant bit of `v[0]` (R120). -/
def streamBit (v : Vector (BitVec w) n) (p : Nat) : Bool := (v[p / w]?.getD 0).getMsbD (p % w)

theorem streamBit_mul_add (v : Vector (BitVec w) n) {i j : Nat} (hi : i < n) (hj : j < w) :
    streamBit v (w * i + j) = v[i].getMsbD j := by
  have word : (w * i + j) / w = i := by rw [Nat.mul_add_div (by omega), Nat.div_eq_of_lt hj, Nat.add_zero]
  have bit : (w * i + j) % w = j := by rw [Nat.mul_add_mod, Nat.mod_eq_of_lt hj]
  rw [streamBit, word, bit, Vector.getElem?_eq_getElem hi, Option.getD_some]

theorem streamBit_of_le (v : Vector (BitVec w) n) {p : Nat} (h : n * w ≤ p) : streamBit v p = false := by
  rcases w.eq_zero_or_pos with rfl | pos
  · exact BitVec.getMsbD_of_ge _ _ (Nat.zero_le _)
  · have past : n ≤ p / w := (Nat.le_div_iff_mul_le pos).2 h
    rw [streamBit, Vector.getElem?_eq_none past, Option.getD_none]
    exact BitVec.getMsbD_zero

/-- A sequence whose words hold, one after the other, the bits of another one of the same total width has its bit
string. -/
theorem streamBit_eq_of_words {u : Vector (BitVec w) n} {v : Vector (BitVec w') n'} (width : n * w = n' * w')
    (words : ∀ i (hi : i < n), ∀ j < w, u[i].getMsbD j = streamBit v (w * i + j)) : streamBit u = streamBit v := by
  funext p
  by_cases h : p < n * w
  · have pos : 0 < w := Nat.pos_of_mul_pos_left (Nat.zero_lt_of_lt h)
    have hi : p / w < n := (Nat.div_lt_iff_lt_mul pos).2 h
    have hj : p % w < w := Nat.mod_lt _ pos
    rw [← Nat.div_add_mod p w, streamBit_mul_add u hi hj, words _ hi _ hj]
  · rw [streamBit_of_le u (by omega), streamBit_of_le v (by omega)]

/-- The bit string determines the words. -/
theorem streamBit_injective : Function.Injective (streamBit : Vector (BitVec w) n → Nat → Bool) := by
  intro u v same
  refine Vector.ext fun i hi => BitVec.eq_of_getMsbD_eq fun j hj => ?_
  rw [← streamBit_mul_add u hi hj, same, streamBit_mul_add v hi hj]

/-! ### The bit string as a number -/

/-- The words read as the digits, most significant first, of one number: what `packedStream` and `packLanes` cut up. -/
def streamNat (l : List (BitVec w)) : Nat := l.foldl (fun acc x => acc * 2 ^ w + x.toNat) 0

theorem streamNat_concat (l : List (BitVec w)) (x : BitVec w) :
    streamNat (l ++ [x]) = 2 ^ w * streamNat l + x.toNat := by
  rw [streamNat, List.foldl_concat, mul_comm, streamNat]

theorem streamNat_testBit (l : List (BitVec w)) {i j : Nat} (hi : i < l.length) (hj : j < w) :
    (streamNat l).testBit (w * (l.length - 1 - i) + (w - 1 - j)) = l[i].getMsbD j := by
  induction l using List.reverseRecOn with
  | nil => cases hi
  | append_singleton l x ih =>
    rw [streamNat_concat, Nat.testBit_two_pow_mul_add _ x.isLt]
    rw [List.length_append, List.length_singleton] at hi ⊢
    rcases Nat.lt_succ_iff_lt_or_eq.1 hi with earlier | rfl
    · have place : w * (l.length + 1 - 1 - i) + (w - 1 - j) = w * (l.length - 1 - i) + (w - 1 - j) + w := by
        rw [show l.length + 1 - 1 - i = l.length - 1 - i + 1 by omega]
        ring
      rw [place, if_neg (by omega), Nat.add_sub_cancel, ih earlier, List.getElem_append_left earlier]
    · have lowest : l.length + 1 - 1 - l.length = 0 := by omega
      have inside : w - 1 - j < w := by omega
      rw [lowest, mul_zero, zero_add, if_pos inside, List.getElem_concat_length rfl, BitVec.getMsbD_eq_getLsbD,
        decide_eq_true hj, Bool.true_and, BitVec.testBit_toNat]

/-- Position `p` of the bit string from its top is position `n * w - 1 - p` of the number from its bottom. -/
theorem streamNat_toList_testBit (v : Vector (BitVec w) n) {p : Nat} (h : p < n * w) :
    (streamNat v.toList).testBit (n * w - 1 - p) = streamBit v p := by
  have pos : 0 < w := Nat.pos_of_mul_pos_left (Nat.zero_lt_of_lt h)
  obtain ⟨i, j, hj, rfl⟩ : ∃ i j, j < w ∧ p = w * i + j := ⟨p / w, p % w, Nat.mod_lt _ pos, (Nat.div_add_mod p w).symm⟩
  have hi : i < n := by
    by_contra past
    have := Nat.mul_le_mul_left w (Nat.le_of_not_lt past)
    rw [mul_comm n w] at h
    omega
  obtain ⟨d, rfl⟩ : ∃ d, n = d + 1 + i := ⟨n - 1 - i, by omega⟩
  have bit := streamNat_testBit v.toList (i := i) (by simp) hj
  rw [streamBit_mul_add v hi hj, ← Vector.getElem_toList (by simp), ← bit]
  congr 1
  rw [Vector.length_toList, show d + 1 + i - 1 - i = d by omega, add_mul, add_mul, mul_comm i w, mul_comm d w]
  omega

end

/-! ### Packing keeps the bit string -/

theorem packedStream_getMsbD {k : Nat} (b : Vector Byte k) {p : Nat} (h : p < 8 * k) :
    (packedStream b).getMsbD p = streamBit b p := by
  rw [packedStream, BitVec.getMsbD_eq_getLsbD, BitVec.getLsbD_ofNat, mul_comm 8 k]
  rw [← streamNat_toList_testBit b (by omega), streamNat]
  have inside : p < k * 8 ∧ k * 8 - 1 - p < k * 8 := by omega
  simp [inside]

theorem packLanes_getElem_getMsbD {w k i j : Nat} (v : Vector (BitVec w) 16) (width : k * 8 = 16 * w) (hi : i < k)
    (hj : j < 8) : (packLanes k v)[i].getMsbD j = streamBit v (8 * i + j) := by
  have place : 8 * (k - 1 - i) + (8 - 1 - j) = 16 * w - 1 - (8 * i + j) := by omega
  have inside : 8 - 1 - j < 8 := by omega
  rw [packLanes, Vector.getElem_ofFn, BitVec.getMsbD_eq_getLsbD, BitVec.getLsbD_ofNat, decide_eq_true hj,
    decide_eq_true inside, Bool.true_and, Bool.true_and, Nat.testBit_shiftRight, place,
    ← streamNat_toList_testBit v (by omega), streamNat]

/-- R126: `Pack_w` writes the lanes contiguously, with no padding bits. -/
theorem streamBit_packLanes {w k : Nat} (v : Vector (BitVec w) 16) (width : k * 8 = 16 * w) :
    streamBit (packLanes k v) = streamBit v :=
  streamBit_eq_of_words width fun _ hi _ hj => packLanes_getElem_getMsbD v width hi hj

theorem streamBit_pack1 (v : Vector (BitVec 1) 16) : streamBit (pack1 v) = streamBit v := streamBit_packLanes v rfl

theorem streamBit_pack2 (v : Vector (BitVec 2) 16) : streamBit (pack2 v) = streamBit v := streamBit_packLanes v rfl

theorem streamBit_pack3 (v : Vector (BitVec 3) 16) : streamBit (pack3 v) = streamBit v := streamBit_packLanes v rfl

/-! ### Unpacking keeps the bit string -/

/-- A slice of a word, its position counted from the most significant bit. -/
theorem getMsbD_slice {n s len j : Nat} (x : BitVec n) (h : s + len ≤ n) (hj : j < len) :
    (x.extractLsb' (n - len - s) len).getMsbD j = x.getMsbD (s + j) := by
  have place : n - (n - len - s + len - j) = s + j := by omega
  have inside : n - len - s + len - j ≤ n := by omega
  rw [BitVec.getMsbD_extractLsb', place, decide_eq_true hj, decide_eq_true inside, Bool.true_and, Bool.true_and]

/-- A field inside byte `c` of the packed bytes. -/
theorem getMsbD_field {n c s len j : Nat} (b : Vector Byte n) (hc : c < n) (h : s + len ≤ 8) (hj : j < len) :
    (b[c].extractLsb' (8 - len - s) len).getMsbD j = streamBit b (8 * c + s + j) := by
  rw [getMsbD_slice _ h hj, add_assoc, streamBit_mul_add b hc (by omega)]

/-- The OR of R124: the last `up` bits of byte `c` in front of the first `down` bits of the next byte. -/
theorem getMsbD_straddle {n c w up down j : Nat} (b : Vector Byte n) (hc : c + 1 < n) (hup : up ≤ 8) (hdown : down ≤ 8)
    (width : up + down = w) (hj : j < w) :
    ((b[c].extractLsb' 0 up).setWidth w <<< down ||| (b[c + 1].extractLsb' (8 - down) down).setWidth w).getMsbD j =
      streamBit b (8 * c + (8 - up) + j) := by
  by_cases first : j < up
  · have bit : 8 - up + j < 8 := by omega
    have place : 8 - 1 - (8 - up + j) = w - 1 - j - down := by omega
    have inHigh : ¬ w - 1 - j < down ∧ w - 1 - j < w ∧ w - 1 - j - down < w ∧ w - 1 - j - down < up := by omega
    rw [add_assoc, streamBit_mul_add b (by omega) bit]
    simp [BitVec.getMsbD_eq_getLsbD, hj, bit, place, inHigh]
  · have bit : j - up < 8 := by omega
    have place : 8 - 1 - (j - up) = 8 - down + (w - 1 - j) := by omega
    have inLow : w - 1 - j < down ∧ w - 1 - j < w := by omega
    rw [show 8 * c + (8 - up) + j = 8 * (c + 1) + (j - up) by omega, streamBit_mul_add b hc bit]
    simp [BitVec.getMsbD_eq_getLsbD, hj, bit, place, inLow]

/-- R121 reads the bits of the packed bytes in their order. -/
theorem streamBit_unpack1 (b : Vector Byte 2) : streamBit (unpack1 b) = streamBit b := by
  refine streamBit_eq_of_words rfl fun k hk j hj => ?_
  have lane : (unpack1 b)[k] = (b[k / 8]).extractLsb' (8 - 1 - k % 8) 1 := by simp [unpack1]
  have place : 8 * (k / 8) + k % 8 + j = 1 * k + j := by omega
  rw [lane, getMsbD_field b _ (by omega) hj, place]

/-- R122 reads the bits of the packed bytes in their order. -/
theorem streamBit_unpack2 (b : Vector Byte 4) : streamBit (unpack2 b) = streamBit b := by
  refine streamBit_eq_of_words rfl fun k hk j hj => ?_
  have lane : (unpack2 b)[k] = (b[k / 4]).extractLsb' (8 - 2 - 2 * (k % 4)) 2 := by simp [unpack2]
  have place : 8 * (k / 4) + 2 * (k % 4) + j = 2 * k + j := by omega
  rw [lane, getMsbD_field b _ (by omega) hj, place]

theorem unpack3_getElem (b : Vector Byte 6) {k : Nat} (hk : k < 16) :
    (unpack3 b)[k] = lane3 b[3 * (k / 8)] b[3 * (k / 8) + 1] b[3 * (k / 8) + 2] (k % 8) := by
  rw [unpack3, Vector.getElem_ofFn]

/-- The table of R123 is its formula: lane `r` of a group is bits `3r` to `3r + 2` of the group's three bytes. -/
theorem lane3_getMsbD (a m z : Byte) {r j : Nat} (hr : r < 8) (hj : j < 3) :
    (lane3 a m z r).getMsbD j = streamBit #v[a, m, z] (3 * r + j) := by
  match r with
  | 0 => exact getMsbD_field (c := 0) (s := 0) #v[a, m, z] (by decide) (by decide) hj
  | 1 => exact getMsbD_field (c := 0) (s := 3) #v[a, m, z] (by decide) (by decide) hj
  | 2 => exact getMsbD_straddle (c := 0) (up := 2) #v[a, m, z] (by decide) (by decide) (by decide) rfl hj
  | 3 => exact getMsbD_field (c := 1) (s := 1) #v[a, m, z] (by decide) (by decide) hj
  | 4 => exact getMsbD_field (c := 1) (s := 4) #v[a, m, z] (by decide) (by decide) hj
  | 5 => exact getMsbD_straddle (c := 1) (up := 1) #v[a, m, z] (by decide) (by decide) (by decide) rfl hj
  | 6 => exact getMsbD_field (c := 2) (s := 2) #v[a, m, z] (by decide) (by decide) hj
  | 7 => exact getMsbD_field (c := 2) (s := 5) #v[a, m, z] (by decide) (by decide) hj

/-- The three bytes of group `g` hold the 24 bits of the packed bytes from bit `24 * g` on (R123). -/
theorem streamBit_group3 (b : Vector Byte 6) {g p : Nat} (hg : g < 2) (hp : p < 24) :
    streamBit #v[b[3 * g], b[3 * g + 1], b[3 * g + 2]] p = streamBit b (24 * g + p) := by
  obtain ⟨c, t, hc, ht, rfl⟩ : ∃ c t, c < 3 ∧ t < 8 ∧ p = 8 * c + t := ⟨p / 8, p % 8, by omega, by omega, by omega⟩
  rw [show 24 * g + (8 * c + t) = 8 * (3 * g + c) + t by ring]
  rw [streamBit_mul_add _ hc ht, streamBit_mul_add b (by omega) ht]
  interval_cases c <;> rfl

/-- R123 reads the bits of the packed bytes in their order. -/
theorem streamBit_unpack3 (b : Vector Byte 6) : streamBit (unpack3 b) = streamBit b := by
  refine streamBit_eq_of_words rfl fun k hk j hj => ?_
  have place : 24 * (k / 8) + (3 * (k % 8) + j) = 3 * k + j := by omega
  rw [unpack3_getElem b hk, lane3_getMsbD _ _ _ (by omega) hj, streamBit_group3 b (by omega) (by omega), place]

/-! ### The statements -/

/-- Lanes with the bits of the packed bytes are the slices of the packed stream (R120). -/
theorem getElem_eq_slice_of_streamBit {w n : Nat} {v : Vector (BitVec w) 16} {b : Vector Byte n} (width : 8 * n = 16 * w)
    (same : streamBit v = streamBit b) (k : Fin 16) :
    v[k.val] = (packedStream b).extractLsb' (16 * w - w - w * k.val) w := by
  have last : w * k.val + w ≤ 16 * w := by
    calc w * k.val + w = w * (k.val + 1) := (Nat.mul_succ ..).symm
      _ ≤ w * 16 := Nat.mul_le_mul_left w k.isLt
      _ = 16 * w := mul_comm ..
  rw [← width] at last ⊢
  refine BitVec.eq_of_getMsbD_eq fun j hj => ?_
  rw [getMsbD_slice _ last hj, packedStream_getMsbD b (by omega), ← same, streamBit_mul_add v k.isLt hj]

/-- Settles O7: the bit strings of the lanes and of the packed bytes are one, and `packedStream` is its number. -/
theorem unpackersSliceThePackedStream : Obligations.UnpackersSliceThePackedStream :=
  ⟨fun b => getElem_eq_slice_of_streamBit rfl (streamBit_unpack1 b),
    fun b => getElem_eq_slice_of_streamBit rfl (streamBit_unpack2 b),
    fun b => getElem_eq_slice_of_streamBit rfl (streamBit_unpack3 b)⟩

/-- Settles O8: packing and unpacking keep the bit string, which determines the words. -/
theorem packAndUnpackAreInverse : Obligations.PackAndUnpackAreInverse := by
  refine ⟨fun v => ?_, fun v => ?_, fun v => ?_, fun b => ?_, fun b => ?_, fun b => ?_⟩ <;> apply streamBit_injective
  · rw [streamBit_unpack1, streamBit_pack1]
  · rw [streamBit_unpack2, streamBit_pack2]
  · rw [streamBit_unpack3, streamBit_pack3]
  · rw [streamBit_pack1, streamBit_unpack1]
  · rw [streamBit_pack2, streamBit_unpack2]
  · rw [streamBit_pack3, streamBit_unpack3]

/-- A field shifted up past the width of another has no bit in common with it. -/
theorem shifted_and_low_eq_zero {m n : Nat} (w : Nat) (high : BitVec m) (low : BitVec n) :
    high.setWidth w <<< n &&& low.setWidth w = 0 := by
  refine BitVec.eq_of_getLsbD_eq fun i _ => ?_
  by_cases below : i < n
  · simp [below]
  · simp [BitVec.getLsbD_of_ge low i (by omega)]

/-- Settles O9: lanes 2 and 5 of the table of R123, in both groups. -/
theorem straddlingLanesAreOrs : Obligations.StraddlingLanesAreOrs := by
  intro b
  refine ⟨⟨?_, ?_⟩, ⟨?_, ?_⟩, ⟨?_, ?_⟩, ⟨?_, ?_⟩⟩
  case refine_1 | refine_3 | refine_5 | refine_7 => exact unpack3_getElem b (by decide)
  case refine_2 | refine_4 | refine_6 | refine_8 => exact shifted_and_low_eq_zero 3 _ _

/-- The lookup of R125 is in range for every lane. -/
theorem getElem?_lane_eq_mapPalette {c w : Nat} (hc : c = 2 ^ w) (pal : Palette c) (v : Vector (BitVec w) 16)
    (k : Fin 16) : pal[(v[k.val]).toNat]? = some (mapPalette hc pal v)[k.val] := by
  have inRange : (v[k.val]).toNat < c := hc ▸ (v[k.val]).isLt
  rw [Vector.getElem?_eq_getElem inRange, mapPalette, Vector.getElem_ofFn]

/-- Settles O10: the three palette blocks are `mapPalette` of the unpacked lanes. -/
theorem paletteBlocksLookUpEachLane : Obligations.PaletteBlocksLookUpEachLane := by
  refine ⟨fun pal b k => ?_, fun pal b k => ?_, fun pal b k => ?_⟩
  · rw [palBlock2, ← getElem?_lane_eq_mapPalette]
  · rw [palBlock4, ← getElem?_lane_eq_mapPalette]
  · rw [palBlock8, ← getElem?_lane_eq_mapPalette]

end Sys2Proof
end

section
/-! PROOFS. The palette caches (spec/42_palette_cache.md R133): what one add leaves in the slot it goes to and in every
other slot. -/

namespace Sys2Proof.Machine

/-- The addition of `Fin 256` is the wrap of the ring (R133). -/
theorem Cache.nextHead_val_of_some {c : Nat} {k : Cache c} {h : Fin 256} (head : k.head = some h) :
    k.nextHead.val = (h.val + 1) % 256 := by
  rw [k.nextHead_of_some h head, Fin.val_add, Fin.val_one]

theorem Cache.add_slots_nextHead {c : Nat} (k : Cache c) (pal : Palette c) :
    (k.add pal).slots[k.nextHead.val] = pal :=
  Vector.getElem_set_self _

theorem Cache.add_slots_of_ne {c : Nat} (k : Cache c) (pal : Palette c) {i : Fin 256} (other : i ≠ k.nextHead) :
    (k.add pal).slots[i.val] = k.slots[i.val] :=
  Vector.getElem_set_ne k.nextHead.isLt i.isLt (Fin.val_ne_of_ne other.symm)

/-- Settles O11: the new head is the slot `nextHead` that the add writes. -/
theorem cacheAddWritesTheNextSlot : Obligations.CacheAddWritesTheNextSlot := by
  intro c k pal
  refine ⟨fun empty => ?emptyHead, fun h head => ?headAdvances, fun g newHead => ?slots, k.add_count pal⟩
  case emptyHead => rw [k.add_head, k.nextHead_of_none empty]
  case headAdvances => rw [k.add_head, Option.map_some, Cache.nextHead_val_of_some head]
  case slots =>
    obtain rfl : k.nextHead = g := Option.some.inj newHead
    exact ⟨k.add_slots_nextHead pal, fun i other => k.add_slots_of_ne pal other⟩

end Sys2Proof.Machine
end

section
/-! PROOFS. The Frame Assembler and the debug raster (spec/44_frame_assembler.md R180, R182). The curve table of a
configured state is a permutation of `0..NB-1`, so the block of every pixel of the picture is an entry of BS, and of TAGS
where the debug channel exists: no read of the assembler leaves its store. -/

namespace Sys2Proof.Machine

/-! ### The raster -/

section
variable (s : State)

@[simp] theorem State.raster_length (pixelAt : Nat → Nat → Byte) :
    (s.raster pixelAt).length = s.geo.width * s.geo.height := by
  simp [State.raster]

/-- Distinct pixels have distinct indices: column and row are the remainder and the quotient by WIDTH (R56). -/
theorem State.raster_getElem? (pixelAt : Nat → Nat → Byte) {x y : Nat} (hx : x < s.geo.width) (hy : y < s.geo.height) :
    (s.raster pixelAt)[x + y * s.geo.width]? = some (pixelAt x y) := by
  have inside : x + y * s.geo.width < s.geo.width * s.geo.height := by
    rw [Nat.mul_comm y]
    exact Nat.add_mul_lt_mul_of_lt_of_lt hx hy
  have column : (x + y * s.geo.width) % s.geo.width = x := by rw [Nat.add_mul_mod_self_right, Nat.mod_eq_of_lt hx]
  have row : (x + y * s.geo.width) / s.geo.width = y := by
    rw [Nat.add_mul_div_right _ _ (Nat.zero_lt_of_lt hx), Nat.div_eq_of_lt hx, Nat.zero_add]
  rw [State.raster, List.getElem?_map, List.getElem?_range inside, Option.map_some, column, row]

end

/-! ### The reads of one pixel -/

section
variable {s : State}

theorem State.curveOf_of_getElem? {r q : Nat} (entry : s.lut[r]? = some q) : s.curveOf r = q := by
  simp [State.curveOf, List.getD_eq_getElem?_getD, entry]

theorem State.tagAt_of_getElem? {q : Nat} {tag : Nibble} (entry : s.tags[q]? = some tag) : s.tagAt q = tag := by
  simp [State.tagAt, List.getD_eq_getElem?_getD, entry]

theorem State.getElem?_eq_pixel {x y : Nat} {b : Block} (entry : s.bs[s.blockOfPixel x y]? = some b) :
    b[x % 4 + (y % 4) * 4]? = some (s.pixel x y) := by
  have inBlock : x % 4 + (y % 4) * 4 < 16 := by omega
  obtain rfl := State.readBlock_of_getElem? entry
  exact Vector.getElem?_eq_getElem inBlock

namespace State.Configured

/-- Every raster block has a curve position, and it is below NB (R106). -/
theorem exists_lut_entry (conf : s.Configured) {r : Nat} (hr : r < s.geo.nb) :
    ∃ q, s.lut[r]? = some q ∧ q < s.geo.nb := by
  obtain ⟨wide, high, derived⟩ := conf.geoDerived
  have table : s.lut.Perm (List.range s.geo.nb) := by
    rw [conf.lutBuilt, derived]
    exact curveTableIsAPermutation _ _ wide high
  have inTable : r < s.lut.length := by rwa [table.length_eq, List.length_range]
  exact ⟨s.lut[r], List.getElem?_eq_getElem inTable, List.mem_range.1 (table.subset (List.getElem_mem inTable))⟩

/-- BW and BH round up, so the grid of blocks covers every pixel (R8). -/
theorem rasterBlock_lt (conf : s.Configured) {x y : Nat} (hx : x < s.geo.width) (hy : y < s.geo.height) :
    x / 4 + (y / 4) * s.geo.bw < s.geo.nb := by
  obtain ⟨-, -, derived⟩ := conf.geoDerived
  have bw := geometryOf_bw_is_ceil s.geo.width s.geo.height
  have bh := geometryOf_bh_is_ceil s.geo.width s.geo.height
  have nb : (geometryOf s.geo.width s.geo.height).nb =
    (geometryOf s.geo.width s.geo.height).bw * (geometryOf s.geo.width s.geo.height).bh := rfl
  rw [← derived] at bw bh nb
  rw [nb, Nat.mul_comm (y / 4)]
  exact Nat.add_mul_lt_mul_of_lt_of_lt (by omega) (by omega)

/-- `LUT[r]` of a pixel's raster block is read inside the table, and is an entry of the stores of NB entries. -/
theorem lut_blockOfPixel (conf : s.Configured) {x y : Nat} (hx : x < s.geo.width) (hy : y < s.geo.height) :
    s.lut[x / 4 + (y / 4) * s.geo.bw]? = some (s.blockOfPixel x y) ∧ s.blockOfPixel x y < s.geo.nb := by
  obtain ⟨q, entry, below⟩ := conf.exists_lut_entry (conf.rasterBlock_lt hx hy)
  have position : s.blockOfPixel x y = q := State.curveOf_of_getElem? entry
  exact position ▸ ⟨entry, below⟩

/-! ### The two rasters -/

/-- `Assemble()` at pixel `(x, y)` (R180). -/
theorem raster_pixel (conf : s.Configured) (x y : Nat) (hx : x < s.geo.width) (hy : y < s.geo.height) :
    ∃ q b, s.lut[x / 4 + (y / 4) * s.geo.bw]? = some q ∧ s.bs[q]? = some b ∧
      (s.raster s.pixel)[x + y * s.geo.width]? = b[x % 4 + (y % 4) * 4]? := by
  obtain ⟨entry, below⟩ := conf.lut_blockOfPixel hx hy
  have block := List.getElem?_eq_getElem (conf.bsSize.symm ▸ below)
  refine ⟨_, _, entry, block, ?_⟩
  rw [s.raster_getElem? _ hx hy, State.getElem?_eq_pixel block]

/-- The debug raster at pixel `(x, y)`, where the debug channel exists (R182). -/
theorem raster_debugPixel (conf : s.Configured) (channel : s.params.hasDebug = true) (x y : Nat)
    (hx : x < s.geo.width) (hy : y < s.geo.height) :
    ∃ q tag, s.lut[x / 4 + (y / 4) * s.geo.bw]? = some q ∧ s.tags[q]? = some tag ∧
      (s.raster s.debugPixel)[x + y * s.geo.width]? = some (tag.setWidth 8) := by
  obtain ⟨entry, below⟩ := conf.lut_blockOfPixel hx hy
  have tagsSize : s.tags.length = s.geo.nb := by rw [conf.tagsLength, State.tagsSize, if_pos channel]
  have tag := List.getElem?_eq_getElem (tagsSize.symm ▸ below)
  refine ⟨_, _, entry, tag, ?_⟩
  rw [s.raster_getElem? _ hx hy, State.debugPixel, State.tagAt_of_getElem? tag]

end State.Configured

/-! ### What the end of a frame writes to DBG_OUT -/

theorem State.finishFrame_dbgOut_of_shown {f : Frame} (channel : s.params.hasDebug = true) (asked : f.debug = true) :
    (s.finishFrame f).dbgOut = s.raster s.debugPixel := by
  simp [channel, asked]

theorem State.finishFrame_dbgOut_of_not_shown {f : Frame} (h : s.params.hasDebug = false ∨ f.debug = false) :
    (s.finishFrame f).dbgOut = s.dbgOut := by
  obtain noChannel | notAsked := h
  · simp [noChannel]
  · simp [notAsked]

end

/-! ### The statements -/

/-- Settles O40: the step is `finishFrame`, whose OUT is the raster of R180. -/
theorem frameEndsWithAssembly : Obligations.FrameEndsWithAssembly := by
  intro s f conf inProgress atEnd
  exact ⟨s.finishFrame f, step_finish inProgress atEnd.not_lt, s.raster_length _, conf.raster_pixel, rfl⟩

/-- Settles O41: OUT does not depend on the debug flag, and DBG_OUT is the raster of R182 or is kept. -/
theorem debugRasterShowsTheTags : Obligations.DebugRasterShowsTheTags := by
  intro s f conf inProgress atEnd
  refine ⟨s.finishFrame f, step_finish inProgress atEnd.not_lt, conf.raster_pixel, fun channel asked => ?shown,
    State.finishFrame_dbgOut_of_not_shown⟩
  case shown =>
    rw [State.finishFrame_dbgOut_of_shown channel asked]
    exact ⟨s.raster_length _, conf.raster_debugPixel channel⟩

end Sys2Proof.Machine
end

section
/-! PROOFS. The requests of the host interface (spec/45_host_interface.md R190, R194). Between requests a step takes the
next request off the host's list and serves it. -/

namespace Sys2Proof.Machine

theorem State.idle_of_request {s : State} {r : Request} {rest : List Request} (next : s.requests = r :: rest) :
    s.idle = ({ s with requests := rest } : State).serve r := by
  simp [State.idle, next]

@[simp] theorem State.serve_readStatus (s : State) : s.serve .readStatus = s.readStatus := rfl

/-- With no frame in progress, a step serves the request that comes next (R190). -/
theorem step_request {s : State} {r : Request} {rest : List Request} (between : s.frame = none)
    (next : s.requests = r :: rest) : step s = .next (({ s with requests := rest } : State).serve r) := by
  rw [step_idle between, State.idle_of_request next]

/-- Settles O52: the request served is READ_STATUS, which writes nothing but the answer, and taking a request off the
list changes neither STATUS nor CFG_STATE, of which that answer is made. -/
theorem readStatusChangesNothing : Obligations.ReadStatusChangesNothing := by
  intro s rest between next
  have sameReport : ({ s with requests := rest } : State).report = s.report := rfl
  rw [step_request between next, State.serve_readStatus, State.readStatus, sameReport, State.report]

end Sys2Proof.Machine
end

section
/-! PROOFS. The encoding (spec/30_encoding.md R70 to R78). One equation of the decoder for each tag, one lemma for each
fact that a header gives of the bytes of a command, and one lemma that says of all bytes what the decoder reads in them. -/

namespace Sys2Proof

/-! ### The decoder, tag by tag -/

section
variable (lf : Nibble) (p : List Byte)

theorem decode_skip : decode (header 0x0#4 lf :: p) = .ok (.skip lf, p) := by simp [decode]
theorem decode_skipLong : decode (header 0x1#4 lf :: p) =
    takeByte .noExt p fun ext p => .ok (.skipLong lf ext, p) := by simp [decode]
theorem decode_repeatPrev : decode (header 0x2#4 lf :: p) = .ok (.repeatPrev lf, p) := by simp [decode]
theorem decode_repeatPrevLong : decode (header 0x3#4 lf :: p) =
    takeByte .noExt p fun ext p => .ok (.repeatPrevLong lf ext, p) := by simp [decode]
theorem decode_solid : decode (header 0x4#4 lf :: p) =
    takeByte .noColour p fun c p => .ok (.solid lf c, p) := by simp [decode]
theorem decode_solidLong : decode (header 0x5#4 lf :: p) =
    takeByte .noExt p fun ext p => takeByte .noColour p fun c p => .ok (.solidLong lf ext c, p) := by simp [decode]
theorem decode_solidSep : decode (header 0x6#4 lf :: p) =
    takeByte .noColour p fun c p => .ok (.solidSep lf c, p) := by simp [decode]
theorem decode_solidSepLong : decode (header 0x7#4 lf :: p) =
    takeByte .noExt p fun ext p => takeByte .noColour p fun c p => .ok (.solidSepLong lf ext c, p) := by simp [decode]
theorem decode_pal2 : decode (header 0x8#4 lf :: p) =
    takePalette 2 p fun pal p => takeData 2 (shortCount lf) p (.pal2 lf pal) := by simp [decode]
theorem decode_pal2Cache : decode (header 0x9#4 lf :: p) =
    takeByte .noSelector p fun i p => takeData 2 (shortCount lf) p (.pal2Cache lf i) := by simp [decode]
theorem decode_pal4 : decode (header 0xA#4 lf :: p) =
    takePalette 4 p fun pal p => takeData 4 (shortCount lf) p (.pal4 lf pal) := by simp [decode]
theorem decode_pal4Cache : decode (header 0xB#4 lf :: p) =
    takeByte .noSelector p fun i p => takeData 4 (shortCount lf) p (.pal4Cache lf i) := by simp [decode]
theorem decode_pal8 : decode (header 0xC#4 lf :: p) =
    takePalette 8 p fun pal p => takeData 6 (shortCount lf) p (.pal8 lf pal) := by simp [decode]
theorem decode_pal8Cache : decode (header 0xD#4 lf :: p) =
    takeByte .noSelector p fun i p => takeData 6 (shortCount lf) p (.pal8Cache lf i) := by simp [decode]
theorem decode_raw : decode (header 0xE#4 lf :: p) = takeData 16 (shortCount lf) p (.raw lf) := by simp [decode]
theorem decode_rawLong : decode (header 0xF#4 lf :: p) =
    takeByte .noExt p fun ext p => takeData 16 (longCount lf ext) p (.rawLong lf ext) := by simp [decode]

end

@[simp] theorem takeByte_cons (missing : DecodeError) (b : Byte) (p : List Byte) (k : Byte → List Byte → Decoded) :
    takeByte missing (b :: p) k = k b p := rfl

theorem takePalette_append {c : Nat} (pal : Palette c) (p : List Byte) (k : Palette c → List Byte → Decoded) :
    takePalette c (pal.toList ++ p) k = k pal p := by
  rw [takePalette, takeVector_append]

/-- Settles O1: tag by tag, each part of the encoding is taken back as it was put. -/
theorem decodeOfEncodeGivesTheCommand : Obligations.DecodeOfEncodeGivesTheCommand := by
  intro i rest hwf
  cases i <;> simp only [encode, List.cons_append, List.nil_append, List.append_assoc] <;>
    simp only [Instr.wf, beq_iff_eq] at hwf
  case skip lf => exact decode_skip lf rest
  case skipLong lf ext => exact decode_skipLong lf _
  case repeatPrev lf => exact decode_repeatPrev lf rest
  case repeatPrevLong lf ext => exact decode_repeatPrevLong lf _
  case solid lf c => exact decode_solid lf _
  case solidLong lf ext c => exact decode_solidLong lf _
  case solidSep lf c => exact decode_solidSep lf _
  case solidSepLong lf ext c => exact decode_solidSepLong lf _
  case pal2 => rw [decode_pal2, takePalette_append, takeData_append hwf]
  case pal2Cache => rw [decode_pal2Cache, takeByte_cons, takeData_append hwf]
  case pal4 => rw [decode_pal4, takePalette_append, takeData_append hwf]
  case pal4Cache => rw [decode_pal4Cache, takeByte_cons, takeData_append hwf]
  case pal8 => rw [decode_pal8, takePalette_append, takeData_append hwf]
  case pal8Cache => rw [decode_pal8Cache, takeByte_cons, takeData_append hwf]
  case raw => rw [decode_raw, takeData_append hwf]
  case rawLong => rw [decode_rawLong, takeByte_cons, takeData_append hwf]

/-! ### What the bytes of a command show of it -/

section
variable (i : Instr) (rest : List Byte)

theorem headerTag_encode : headerTag ((encode i ++ rest).getD 0 0) = i.tag := by
  cases i <;> exact headerTag_header _ _

/-- The header and, in a long command, the byte after it give the count (R73, R74). -/
theorem wordCount_encode : Machine.wordCount (encode i ++ rest) = i.count := by
  rw [Machine.wordCount, headerTag_encode]
  cases i <;> simp [encode, headerCount, isLong, Instr.tag, Instr.count]

theorem commandLenAt_encode : Machine.commandLenAt (encode i ++ rest) = commandLen i.tag i.count := by
  rw [Machine.commandLenAt, headerTag_encode, wordCount_encode]

/-- A command without data has nothing behind its head (R75). -/
theorem perBlock_of_groupCount_none (h : Machine.groupCount i = none) : perBlock i.tag = 0 := by
  cases i
  case skip | skipLong | repeatPrev | repeatPrevLong | solid | solidLong | solidSep | solidSepLong => rfl
  all_goals cases h

theorem perBlock_pos_of_groupCount_some {k : Nat} (h : Machine.groupCount i = some k) : 0 < perBlock i.tag := by
  cases i
  case skip | skipLong | repeatPrev | repeatPrevLong | solid | solidLong | solidSep | solidSepLong => cases h
  all_goals simp [perBlock, Instr.tag]

/-- A command is well formed exactly if it carries a group for each of its blocks, where it carries data at all. -/
theorem wf_iff_groupCount : i.wf = true ↔ ∀ k, Machine.groupCount i = some k → k = i.count := by
  cases i <;> simp [Instr.wf, Machine.groupCount, Instr.count]

/-- The head, and then the groups that the command carries (R76). -/
theorem encode_length :
    (encode i).length = Machine.headLen i.tag + (Machine.groupCount i).getD 0 * perBlock i.tag := by
  cases i <;>
    simp [encode, Machine.headLen, Machine.groupCount, isLong, fixedPayload, perBlock, Instr.tag] <;> omega

theorem commandLen_eq_headLen_add (tag : Nibble) (count : Nat) :
    commandLen tag count = Machine.headLen tag + count * perBlock tag := rfl

variable {i}

theorem encode_length_of_wf (h : i.wf = true) : (encode i).length = commandLen i.tag i.count := by
  rw [encode_length, commandLen_eq_headLen_add]
  cases groups : Machine.groupCount i with
  | none => rw [perBlock_of_groupCount_none i groups, Nat.mul_zero, Nat.mul_zero]
  | some k => rw [Option.getD_some, (wf_iff_groupCount i).1 h k groups]

end

/-- Settles O3: the tag is the one that the header byte was made of, and a well-formed command has a group a block. -/
theorem encodedLengthIsLen : Obligations.EncodedLengthIsLen := by
  intro i hwf
  refine ⟨encode_length_of_wf hwf, ?_⟩
  cases i <;> exact congrArg some (headerTag_header _ _)

/-! ### What the decoder reads in any bytes -/

open Machine

/-- The truncation of a fixed payload that ends too early, by the tag: what `fixedCause` is the cause of. -/
def fixedError (tag : Nibble) : DecodeError :=
  match tag.toNat with
  | 0x4 | 0x5 | 0x6 | 0x7 => .noColour
  | 0x8 | 0xA | 0xC => .noPalette
  | 0x9 | 0xB | 0xD => .noSelector
  | _ => .noExt

/-- What is missing where the bytes end inside the head of the command they begin: EXT first, then the fixed payload. -/
def headError (bytes : List Byte) : DecodeError :=
  if isLong (headerTag (bytes.getD 0 0)) ∧ bytes.length < 2 then .noExt else fixedError (headerTag (bytes.getD 0 0))

/-- All that the decoder can answer: the bytes end before or inside the head, or they begin with the encoding of a
command, which is whole or has the groups that are there. -/
inductive Reads (bytes : List Byte) : Decoded → Prop
  | nothing (empty : bytes = []) : Reads bytes (.error .noHeader)
  | headShort (nonempty : bytes ≠ []) (short : bytes.length < headLen (headerTag (bytes.getD 0 0))) :
      Reads bytes (.error (headError bytes))
  | whole (i : Instr) (rest : List Byte) (wf : i.wf = true) (split : bytes = encode i ++ rest) :
      Reads bytes (.ok (i, rest))
  | dataShort (i : Instr) (rest : List Byte) (groups : groupCount i = some (groupsThere bytes))
      (few : groupsThere bytes < i.count) (split : bytes = encode i ++ rest) :
      Reads bytes (.error (.noBlockData i))

/-- `mk` makes the commands of one head, over `count` groups of `n` bytes. -/
structure DataForm {n : Nat} (head : List Byte) (count : Nat) (mk : List (Vector Byte n) → Instr) : Prop where
  encode : ∀ gs, encode (mk gs) = head ++ groupBytes gs
  groups : ∀ gs, groupCount (mk gs) = some gs.length
  count : ∀ gs, (mk gs).count = count
  perBlock : ∀ gs, perBlock (mk gs).tag = n

section
variable {n count : Nat} {head p bytes : List Byte} {mk : List (Vector Byte n) → Instr}

theorem DataForm.headLen_eq (form : DataForm head count mk) (gs : List (Vector Byte n)) :
    headLen (mk gs).tag = head.length := by
  have total := encode_length (mk gs)
  rw [form.encode, form.groups, form.perBlock, List.length_append, groupBytes_length, Option.getD_some] at total
  omega

/-- The groups behind a head are as many as the bytes behind it hold. -/
theorem DataForm.groupsThere_eq (form : DataForm head count mk) (gs : List (Vector Byte n)) (rest : List Byte) :
    groupsThere (Sys2Proof.encode (mk gs) ++ rest) = (groupBytes gs ++ rest).length / n := by
  rw [groupsThere, headerTag_encode, form.headLen_eq, form.perBlock, form.encode, List.append_assoc,
    List.length_append (as := head), Nat.add_sub_cancel_left]

theorem reads_takeData (form : DataForm head count mk) (split : bytes = head ++ p) :
    Reads bytes (takeData n count p mk) := by
  have pos : 0 < n := form.perBlock [] ▸ perBlock_pos_of_groupCount_some _ (form.groups [])
  have taken := takeGroups_length pos count p
  have parts := takeGroups_bytes n count p
  have encoded : bytes = encode (mk (takeGroups n count p).1) ++ (takeGroups n count p).2 := by
    rw [form.encode, List.append_assoc, ← parts, split]
  unfold takeData
  split
  case isTrue all =>
    refine .whole _ _ ((wf_iff_groupCount _).2 fun k groups => ?_) encoded
    rw [form.groups, Option.some.injEq] at groups
    rw [form.count, ← groups, all]
  case isFalse few =>
    have there : groupsThere bytes = (takeGroups n count p).1.length := by
      rw [encoded, form.groupsThere_eq, ← parts]
      omega
    exact .dataShort _ _ (there ▸ form.groups _) (by rw [form.count, there]; omega) encoded

theorem reads_takeByte {missing : DecodeError} {k : Byte → List Byte → Decoded}
    (short : p = [] → Reads bytes (.error missing)) (more : ∀ b q, p = b :: q → Reads bytes (k b q)) :
    Reads bytes (takeByte missing p k) := by
  cases p with
  | nil => exact short rfl
  | cons b q => exact more b q rfl

theorem reads_takePalette {c : Nat} {k : Palette c → List Byte → Decoded}
    (short : p.length < c → Reads bytes (.error .noPalette))
    (more : ∀ (pal : Palette c) q, p = pal.toList ++ q → Reads bytes (k pal q)) :
    Reads bytes (takePalette c p k) := by
  unfold takePalette
  split
  case h_1 taken => exact more _ _ (takeVector_some.1 taken)
  case h_2 missing => exact short (takeVector_none.1 missing)

end

/-! ### The commands with data -/

section
variable (lf : Nibble)

theorem pal2_form (pal : Palette 2) : DataForm (header 0x8#4 lf :: pal.toList) (shortCount lf) (.pal2 lf pal) :=
  ⟨fun _ => rfl, fun _ => rfl, fun _ => rfl, fun _ => rfl⟩
theorem pal2Cache_form (slot : Byte) : DataForm [header 0x9#4 lf, slot] (shortCount lf) (.pal2Cache lf slot) :=
  ⟨fun _ => rfl, fun _ => rfl, fun _ => rfl, fun _ => rfl⟩
theorem pal4_form (pal : Palette 4) : DataForm (header 0xA#4 lf :: pal.toList) (shortCount lf) (.pal4 lf pal) :=
  ⟨fun _ => rfl, fun _ => rfl, fun _ => rfl, fun _ => rfl⟩
theorem pal4Cache_form (slot : Byte) : DataForm [header 0xB#4 lf, slot] (shortCount lf) (.pal4Cache lf slot) :=
  ⟨fun _ => rfl, fun _ => rfl, fun _ => rfl, fun _ => rfl⟩
theorem pal8_form (pal : Palette 8) : DataForm (header 0xC#4 lf :: pal.toList) (shortCount lf) (.pal8 lf pal) :=
  ⟨fun _ => rfl, fun _ => rfl, fun _ => rfl, fun _ => rfl⟩
theorem pal8Cache_form (slot : Byte) : DataForm [header 0xD#4 lf, slot] (shortCount lf) (.pal8Cache lf slot) :=
  ⟨fun _ => rfl, fun _ => rfl, fun _ => rfl, fun _ => rfl⟩
theorem raw_form : DataForm [header 0xE#4 lf] (shortCount lf) (.raw lf) :=
  ⟨fun _ => rfl, fun _ => rfl, fun _ => rfl, fun _ => rfl⟩
theorem rawLong_form (ext : Byte) : DataForm [header 0xF#4 lf, ext] (longCount lf ext) (.rawLong lf ext) :=
  ⟨fun _ => rfl, fun _ => rfl, fun _ => rfl, fun _ => rfl⟩

end

/-! ### The decoder on every header byte -/

/-- The bytes end inside the head that the header of tag `tag` begins. -/
theorem reads_headShort {tag lf : Nibble} {p : List Byte} {e : DecodeError} (short : p.length + 1 < headLen tag)
    (missing : e = if isLong tag ∧ p.length + 1 < 2 then .noExt else fixedError tag) :
    Reads (header tag lf :: p) (.error e) := by
  have first : headerTag ((header tag lf :: p).getD 0 0) = tag := headerTag_header tag lf
  have error : e = headError (header tag lf :: p) := by rw [headError, first]; exact missing
  rw [error]
  exact .headShort (List.cons_ne_nil _ _) (by rw [first]; exact short)

theorem tag_cases (tag : Nibble) :
    tag = 0x0#4 ∨ tag = 0x1#4 ∨ tag = 0x2#4 ∨ tag = 0x3#4 ∨ tag = 0x4#4 ∨ tag = 0x5#4 ∨ tag = 0x6#4 ∨ tag = 0x7#4 ∨
      tag = 0x8#4 ∨ tag = 0x9#4 ∨ tag = 0xA#4 ∨ tag = 0xB#4 ∨ tag = 0xC#4 ∨ tag = 0xD#4 ∨ tag = 0xE#4 ∨ tag = 0xF#4 := by
  revert tag; decide

section
variable {tag lf : Nibble} {p : List Byte}

/-- Only the header byte is there, of a tag whose head is longer. -/
theorem reads_headerOnly {e : DecodeError} (more : 1 < headLen tag)
    (missing : e = if isLong tag then .noExt else fixedError tag) (empty : p = []) :
    Reads (header tag lf :: p) (.error e) :=
  reads_headShort (by rw [empty]; exact more) (by rw [missing, empty]; simp)

/-- The header and EXT bytes are there, of a tag that has a fixed payload after them. -/
theorem reads_extOnly {ext : Byte} {q : List Byte} (more : 2 < headLen tag) (empty : q = []) (split : p = ext :: q) :
    Reads (header tag lf :: p) (.error (fixedError tag)) :=
  reads_headShort (by rw [split, empty]; exact more) (by rw [split, empty]; simp)

/-- The palette of a literal palette command is cut short. -/
theorem reads_paletteShort {c : Nat} (head : headLen tag = c + 1) (short : isLong tag = false)
    (literal : fixedError tag = .noPalette) (few : p.length < c) :
    Reads (header tag lf :: p) (.error .noPalette) :=
  reads_headShort (by omega) (by simp [short, literal])

end

/-- Every answer of the decoder, tag by tag. -/
theorem reads_decode (bytes : List Byte) : Reads bytes (decode bytes) := by
  cases bytes with
  | nil => exact .nothing rfl
  | cons h p =>
    rw [← header_of_fields h]
    generalize headerLf h = lf
    obtain tag | tag | tag | tag | tag | tag | tag | tag | tag | tag | tag | tag | tag | tag | tag | tag :=
      tag_cases (headerTag h) <;> rw [tag]
    · rw [decode_skip]
      exact .whole (.skip lf) p rfl rfl
    · rw [decode_skipLong]
      exact reads_takeByte (reads_headerOnly (by decide) rfl) fun ext q split =>
        .whole (.skipLong lf ext) q rfl (by rw [split]; rfl)
    · rw [decode_repeatPrev]
      exact .whole (.repeatPrev lf) p rfl rfl
    · rw [decode_repeatPrevLong]
      exact reads_takeByte (reads_headerOnly (by decide) rfl) fun ext q split =>
        .whole (.repeatPrevLong lf ext) q rfl (by rw [split]; rfl)
    · rw [decode_solid]
      exact reads_takeByte (reads_headerOnly (by decide) rfl) fun c q split =>
        .whole (.solid lf c) q rfl (by rw [split]; rfl)
    · rw [decode_solidLong]
      exact reads_takeByte (reads_headerOnly (by decide) rfl) fun ext q split =>
        reads_takeByte (reads_extOnly (by decide) · split) fun c r split' =>
          .whole (.solidLong lf ext c) r rfl (by rw [split, split']; rfl)
    · rw [decode_solidSep]
      exact reads_takeByte (reads_headerOnly (by decide) rfl) fun c q split =>
        .whole (.solidSep lf c) q rfl (by rw [split]; rfl)
    · rw [decode_solidSepLong]
      exact reads_takeByte (reads_headerOnly (by decide) rfl) fun ext q split =>
        reads_takeByte (reads_extOnly (by decide) · split) fun c r split' =>
          .whole (.solidSepLong lf ext c) r rfl (by rw [split, split']; rfl)
    · rw [decode_pal2]
      exact reads_takePalette (reads_paletteShort rfl rfl rfl) fun pal q split =>
        reads_takeData (pal2_form lf pal) (by rw [split]; rfl)
    · rw [decode_pal2Cache]
      exact reads_takeByte (reads_headerOnly (by decide) rfl) fun i q split =>
        reads_takeData (pal2Cache_form lf i) (by rw [split]; rfl)
    · rw [decode_pal4]
      exact reads_takePalette (reads_paletteShort rfl rfl rfl) fun pal q split =>
        reads_takeData (pal4_form lf pal) (by rw [split]; rfl)
    · rw [decode_pal4Cache]
      exact reads_takeByte (reads_headerOnly (by decide) rfl) fun i q split =>
        reads_takeData (pal4Cache_form lf i) (by rw [split]; rfl)
    · rw [decode_pal8]
      exact reads_takePalette (reads_paletteShort rfl rfl rfl) fun pal q split =>
        reads_takeData (pal8_form lf pal) (by rw [split]; rfl)
    · rw [decode_pal8Cache]
      exact reads_takeByte (reads_headerOnly (by decide) rfl) fun i q split =>
        reads_takeData (pal8Cache_form lf i) (by rw [split]; rfl)
    · rw [decode_raw]
      exact reads_takeData (raw_form lf) rfl
    · rw [decode_rawLong]
      exact reads_takeByte (reads_headerOnly (by decide) rfl) fun ext q split =>
        reads_takeData (rawLong_form lf ext) (by rw [split]; rfl)

/-! ### The statements about every byte string -/

/-- Settles O2: what `Reads` says of an answer without an error. -/
theorem decodedBytesAreTheEncoding : Obligations.DecodedBytesAreTheEncoding := by
  intro bytes rest i answer
  have read := reads_decode bytes
  rw [answer] at read
  cases read with
  | whole _ _ wf split => exact ⟨wf, split⟩

theorem headLen_le_commandLen (tag : Nibble) (count : Nat) : headLen tag ≤ commandLen tag count :=
  Nat.le_add_right _ _

theorem headLen_pos (tag : Nibble) : 0 < headLen tag := by
  rw [headLen, Nat.add_assoc, Nat.add_comm]
  exact Nat.succ_pos _

theorem commandLen_pos (tag : Nibble) (count : Nat) : 0 < commandLen tag count :=
  (headLen_pos tag).trans_le (headLen_le_commandLen tag count)

/-- Groups that are fewer than the blocks leave the command without its last bytes. -/
theorem length_lt_commandLenAt {bytes : List Byte} {i : Instr} {rest : List Byte}
    (groups : groupCount i = some (groupsThere bytes)) (few : groupsThere bytes < i.count)
    (split : bytes = encode i ++ rest) : bytes.length < commandLenAt bytes := by
  have pos := perBlock_pos_of_groupCount_some i groups
  have tag : headerTag (bytes.getD 0 0) = i.tag := by rw [split, headerTag_encode]
  rw [groupsThere, tag, Nat.div_lt_iff_lt_mul pos] at few
  have len : commandLenAt bytes = headLen i.tag + i.count * perBlock i.tag := by
    rw [split, commandLenAt_encode, commandLen_eq_headLen_add]
  omega

/-- The decoder answers no error exactly when LEN bytes are there; then it answers a command of the header's tag. -/
theorem decode_eq_ok_of_commandLenAt_le {bytes : List Byte} (enough : commandLenAt bytes ≤ bytes.length) :
    ∃ i rest, decode bytes = .ok (i, rest) ∧ i.tag = headerTag (bytes.getD 0 0) := by
  have read := reads_decode bytes
  generalize decode bytes = answer at read
  cases read with
  | nothing empty =>
    rw [empty] at enough
    exact absurd enough (by decide)
  | headShort _ short => exact absurd enough (short.trans_le (headLen_le_commandLen _ _)).not_ge
  | whole i rest _ split => exact ⟨i, rest, rfl, by rw [split, headerTag_encode]⟩
  | dataShort _ _ groups few split => exact absurd enough (length_lt_commandLenAt groups few split).not_ge

/-- Settles O4: a decoded command is the beginning of the bytes, and it is LEN bytes long. -/
theorem decodeFailsExactlyOnMissingBytes : Obligations.DecodeFailsExactlyOnMissingBytes := by
  intro bytes
  constructor
  · rintro ⟨e, failed⟩
    by_contra enough
    obtain ⟨i, rest, answer, -⟩ := decode_eq_ok_of_commandLenAt_le (not_lt.1 enough)
    rw [failed] at answer
    cases answer
  · intro missing
    cases answer : decode bytes with
    | error e => exact ⟨e, rfl⟩
    | ok r =>
      obtain ⟨wf, split⟩ := decodedBytesAreTheEncoding bytes r.2 r.1 answer
      rw [split, commandLenAt_encode, List.length_append, encode_length_of_wf wf] at missing
      omega

/-- The longest command is a RAW-long of 4096 blocks (R76, R78). -/
theorem commandLenAt_le (bytes : List Byte) : commandLenAt bytes ≤ 65538 := by
  have longest : ∀ tag : Nibble, headLen tag + (if isLong tag then 4096 else 16) * perBlock tag ≤ 65538 := by decide
  have range (tag lf : Nibble) (ext : Byte) : headerCount tag lf ext ≤ if isLong tag then 4096 else 16 := by
    unfold headerCount
    split
    · exact (longCount_range lf ext).2
    · exact (shortCount_range lf).2
  exact (Nat.add_le_add_left (Nat.mul_le_mul_right _ (range _ _ _)) _).trans (longest _)

/-- Settles O5: with 65538 bytes no command is cut short. -/
theorem everyHeaderByteIsLegal : Obligations.EveryHeaderByteIsLegal := by
  intro h p enough
  have whole : commandLenAt (h :: p) ≤ (h :: p).length := (commandLenAt_le _).trans (Nat.succ_le_succ enough)
  exact decode_eq_ok_of_commandLenAt_le whole

/-- Settles O6: eight runs of the decoder, and two counts. -/
theorem specWordsDecode : Obligations.SpecWordsDecode := by
  refine ⟨?_, ?_, ?_, ?_, ?_, ?_, ?_, ?_, ?_, ?_⟩ <;> decide

/-- Bytes that end inside the head of the command they begin. -/
theorem decode_of_headShort {bytes : List Byte} (nonempty : bytes ≠ [])
    (short : bytes.length < headLen (headerTag (bytes.getD 0 0))) : decode bytes = .error (headError bytes) := by
  have inside (i : Instr) (rest : List Byte) (split : bytes = encode i ++ rest) : False := by
    rw [split, headerTag_encode, List.length_append, encode_length] at short
    omega
  have read := reads_decode bytes
  generalize decode bytes = answer at read
  cases read with
  | nothing empty => exact absurd empty nonempty
  | headShort => rfl
  | whole i rest _ split => exact (inside i rest split).elim
  | dataShort i rest _ _ split => exact (inside i rest split).elim

end Sys2Proof
end

section
/-! PROOFS. What a command answers, as a function of the first check that fails (spec/60_exceptions.md R216). The bodies of
Machine/Ops.lean differ in their blocks and in their checks; `exec_eq` says once for all sixteen commands that the answer
is error entry with the cause of the first check that fails, or the commit if none does. -/

namespace Sys2Proof

/-- A command of the REPEAT family (R147, R148). -/
def Instr.isRepeat : Instr → Bool
  | .repeatPrev _ | .repeatPrevLong _ _ => true
  | _ => false

end Sys2Proof

namespace Sys2Proof.Machine

/-! ### The first check that fails -/

/-- The command is a cache reference to a slot that is not valid (R134, R154). -/
def State.slotInvalid (s : State) : Instr → Bool
  | .pal2Cache _ slot _ => decide (s.cache2.count ≤ slot.toNat)
  | .pal4Cache _ slot _ => decide (s.cache4.count ≤ slot.toNat)
  | .pal8Cache _ slot _ => decide (s.cache8.count ≤ slot.toNat)
  | _ => false

/-- The first failure of the checks block by block, with data for the first `avail` blocks (R142, R143, R216 item 5). -/
def State.rangeFailure (s : State) (count avail : Nat) : Option Cause :=
  if s.blockPos + count ≤ s.geo.nb ∧ count ≤ avail then none
  else if s.geo.nb ≤ s.blockPos + avail then some .blockOverrun
  else some .truncBlockdata

/-- How many blocks have the data they need: all of them in a command without data. -/
def availableBlocks (i : Instr) : Nat := (groupCount i).getD i.count

/-- The cause of the first check of a command that fails, in the order of R216 items 2, 4 and 5. -/
def State.firstFailure (s : State) (i : Instr) : Option Cause :=
  if i.isRepeat = true ∧ s.blockPos = 0 then some .repeatAtZero
  else if s.slotInvalid i = true then some .cacheIndex
  else s.rangeFailure i.count (availableBlocks i)

/-- The commit of a command with all its writes. -/
def State.committed (s : State) (i : Instr) : State :=
  (s.added i).commit i.tag i.count (commandLen i.tag i.count) (s.writes i)

/-- Commit, or error entry with the cause of the check that failed. -/
def State.outcome (s : State) (i : Instr) : Option Cause → State
  | none => s.committed i
  | some c => s.raiseError c

section
variable {s : State} {i : Instr}

theorem availableBlocks_of_none (h : groupCount i = none) : availableBlocks i = i.count := by
  rw [availableBlocks, h, Option.getD_none]

theorem availableBlocks_of_some {k : Nat} (h : groupCount i = some k) : availableBlocks i = k := by
  rw [availableBlocks, h, Option.getD_some]

theorem State.rangeFailure_of_inside {count avail : Nat} (room : s.blockPos + count ≤ s.geo.nb) (data : count ≤ avail) :
    s.rangeFailure count avail = none :=
  if_pos ⟨room, data⟩

theorem State.rangeFailure_of_overrun {count avail : Nat} (beyond : s.geo.nb < s.blockPos + count)
    (first : s.geo.nb ≤ s.blockPos + avail) : s.rangeFailure count avail = some .blockOverrun := by
  rw [State.rangeFailure, if_neg (by omega), if_pos first]

theorem State.rangeFailure_of_missing {count avail : Nat} (few : avail < count)
    (first : s.blockPos + avail < s.geo.nb) : s.rangeFailure count avail = some .truncBlockdata := by
  rw [State.rangeFailure, if_neg (by omega), if_neg (by omega)]

theorem State.rangeFailure_ofStream {count avail : Nat} {c : Cause} (h : s.rangeFailure count avail = some c) :
    c.ofStream = true := by
  unfold State.rangeFailure at h
  split at h
  · cases h
  · split at h <;> cases h <;> rfl

theorem State.rangeFailure_eq_none {count avail : Nat} :
    s.rangeFailure count avail = none ↔ s.blockPos + count ≤ s.geo.nb ∧ count ≤ avail := by
  unfold State.rangeFailure
  split
  case isTrue inside => simp [inside]
  case isFalse outside => split <;> simpa using outside

theorem State.firstFailure_of_range (noRepeat : i.isRepeat = false ∨ 0 < s.blockPos) (valid : s.slotInvalid i = false) :
    s.firstFailure i = s.rangeFailure i.count (availableBlocks i) := by
  rw [State.firstFailure, if_neg, if_neg (by simp [valid])]
  rintro ⟨isRepeat, atZero⟩
  obtain h | h := noRepeat
  · rw [h] at isRepeat; cases isRepeat
  · omega

theorem State.firstFailure_of_repeatAtZero (isRepeat : i.isRepeat = true) (atZero : s.blockPos = 0) :
    s.firstFailure i = some .repeatAtZero :=
  if_pos ⟨isRepeat, atZero⟩

theorem State.firstFailure_of_slotInvalid (invalid : s.slotInvalid i = true) : s.firstFailure i = some .cacheIndex := by
  have noRepeat : i.isRepeat = false := by
    cases i
    case pal2Cache | pal4Cache | pal8Cache => rfl
    all_goals cases invalid
  rw [State.firstFailure, noRepeat, if_neg (by simp), if_pos invalid]

/-- Whatever check fails first, it is one of causes 1 to 8 (R211). -/
theorem State.firstFailure_ofStream {c : Cause} (h : s.firstFailure i = some c) : c.ofStream = true := by
  unfold State.firstFailure at h
  split at h
  · cases h; rfl
  · split at h
    · cases h; rfl
    · exact State.rangeFailure_ofStream h

/-- No check fails only if the covered blocks are in the store and each has its data. -/
theorem State.inside_of_firstFailure_eq_none (h : s.firstFailure i = none) :
    s.blockPos + i.count ≤ s.geo.nb ∧ i.count ≤ availableBlocks i := by
  unfold State.firstFailure at h
  split at h
  · cases h
  · split at h
    · cases h
    · exact State.rangeFailure_eq_none.1 h

/-! ### The bodies -/

/-- The answer of a command, for the families of bodies below. -/
def Answers (i : Instr) (s : State) : Prop := exec i s = .next (s.outcome i (s.firstFailure i))

/-- A body whose only check is the block range. -/
theorem conclude_range (noData : groupCount i = none) (noAdd : s.added i = s) :
    s.conclude (if i.count = 0 ∨ s.blockPos + i.count ≤ s.geo.nb then
      .ok (s.commit i.tag i.count (commandLen i.tag i.count) (s.writes i)) else .error .blockOverrun) =
    .next (s.outcome i (s.rangeFailure i.count (availableBlocks i))) := by
  have covers := count_pos i
  rw [availableBlocks_of_none noData]
  split
  case isTrue room =>
    rw [State.rangeFailure_of_inside (by omega) le_rfl, State.outcome, State.committed, noAdd, State.conclude_ok]
  case isFalse beyond => rw [State.rangeFailure_of_overrun (by omega) (by omega), State.outcome, State.conclude_error]

theorem answers_of_skipBody (body : exec i s = s.conclude (s.skipBody i.tag i.count)) (skip : i.isSkip = true)
    (noRepeat : i.isRepeat = false) (noData : groupCount i = none) (noAdd : s.added i = s)
    (noSlot : s.slotInvalid i = false) : Answers i s := by
  rw [Answers, body, State.firstFailure_of_range (.inl noRepeat) noSlot, State.skipBody_eq, ← s.writes_of_isSkip skip,
    conclude_range noData noAdd]

theorem answers_of_solidBody {c : Byte} (body : exec i s = s.conclude (s.solidBody i.tag i.count c))
    (noSkip : i.isSkip = false) (noRepeat : i.isRepeat = false) (noData : groupCount i = none) (noAdd : s.added i = s)
    (noSlot : s.slotInvalid i = false) (blocks : ∀ j, s.blockAfter i j = solidBlock c) : Answers i s := by
  rw [Answers, body, State.firstFailure_of_range (.inl noRepeat) noSlot, State.solidBody_eq,
    ← writes_replicate noSkip blocks, conclude_range noData noAdd]

theorem answers_of_repeatBody (body : exec i s = s.conclude (s.repeatBody i.tag i.count)) (isRepeat : i.isRepeat = true)
    (noSkip : i.isSkip = false) (noData : groupCount i = none) (noAdd : s.added i = s) (noSlot : s.slotInvalid i = false)
    (blocks : ∀ j, s.blockAfter i j = s.readBlock (s.blockPos - 1)) : Answers i s := by
  rw [Answers, body, State.repeatBody_eq, ← writes_replicate noSkip blocks]
  split
  case isTrue atZero => rw [State.firstFailure_of_repeatAtZero isRepeat atZero, State.outcome, State.conclude_error]
  case isFalse later =>
    rw [State.firstFailure_of_range (.inr (Nat.pos_of_ne_zero later)) noSlot, conclude_range noData noAdd]

/-- A command with data, once its palette is known. -/
theorem conclude_dataBody {blocks : List Block} (noSkip : i.isSkip = false) (groups : groupCount i = some blocks.length)
    (written : ∀ j, j < blocks.length → blocks[j]? = some (s.blockAfter i j)) :
    s.conclude (s.dataBody (s.added i) i.tag i.count blocks) =
      .next (s.outcome i (s.rangeFailure i.count (availableBlocks i))) := by
  have covers := count_pos i
  rw [State.dataBody_eq, availableBlocks_of_some groups, State.rangeFailure]
  by_cases inside : s.blockPos + i.count ≤ s.geo.nb ∧ i.count ≤ blocks.length
  · have allWrites : blocks.take i.count = s.writes i :=
      State.writes_eq noSkip (by simp [inside.2]) fun j hj => by
        rw [List.getElem?_take_of_lt hj, written j (by omega)]
    rw [if_pos (.inr inside), if_pos inside, allWrites, State.conclude_ok, State.outcome, State.committed]
  · rw [if_neg (by omega), if_neg inside]
    split <;> rfl

theorem answers_of_dataBody {blocks : List Block}
    (body : exec i s = s.conclude (s.dataBody (s.added i) i.tag i.count blocks)) (noSkip : i.isSkip = false)
    (noRepeat : i.isRepeat = false) (noSlot : s.slotInvalid i = false) (groups : groupCount i = some blocks.length)
    (written : ∀ j, j < blocks.length → blocks[j]? = some (s.blockAfter i j)) : Answers i s := by
  rw [Answers, body, State.firstFailure_of_range (.inl noRepeat) noSlot, conclude_dataBody noSkip groups written]

theorem answers_of_cacheRefBody {c k : Nat} {cache : Cache c} {slot : Byte} {data : List (Vector Byte k)}
    {blockOf : Palette c → Vector Byte k → Block}
    (body : exec i s = s.conclude (s.cacheRefBody cache i.tag i.count slot data blockOf)) (noSkip : i.isSkip = false)
    (noRepeat : i.isRepeat = false) (noAdd : s.added i = s) (groups : groupCount i = some data.length)
    (slotCheck : s.slotInvalid i = decide (cache.count ≤ slot.toNat))
    (blocks : ∀ j, s.blockAfter i j = blockOf (cache.get slot) (data.getD j default)) : Answers i s := by
  rw [State.cacheRefBody_eq] at body
  split at body
  case isTrue invalid =>
    rw [Answers, body, State.firstFailure_of_slotInvalid (slotCheck.trans (decide_eq_true invalid)), State.outcome,
      State.conclude_error]
  case isFalse valid =>
    exact answers_of_dataBody (by rw [noAdd]; exact body) noSkip noRepeat (slotCheck.trans (decide_eq_false valid))
      (by simpa using groups) fun j hj => by rw [blocks]; exact groups_getElem? _ _ j hj

/-- EVERY COMMAND, IN EVERY STATE, enters the error of its first check that fails, and commits if none does. -/
theorem exec_eq (i : Instr) (s : State) : exec i s = .next (s.outcome i (s.firstFailure i)) := by
  change Answers i s
  cases i with
  | skip | skipLong => exact answers_of_skipBody rfl rfl rfl rfl rfl rfl
  | repeatPrev | repeatPrevLong => exact answers_of_repeatBody rfl rfl rfl rfl rfl rfl fun _ => rfl
  | solid | solidLong | solidSep | solidSepLong => exact answers_of_solidBody rfl rfl rfl rfl rfl rfl fun _ => rfl
  | pal2 lf pal data =>
    exact answers_of_dataBody rfl rfl rfl rfl (by simp [groupCount]) (groups_getElem? data (palBlock2 pal))
  | pal4 lf pal data =>
    exact answers_of_dataBody rfl rfl rfl rfl (by simp [groupCount]) (groups_getElem? data (palBlock4 pal))
  | pal8 lf pal data =>
    exact answers_of_dataBody rfl rfl rfl rfl (by simp [groupCount]) (groups_getElem? data (palBlock8 pal))
  | pal2Cache | pal4Cache | pal8Cache => exact answers_of_cacheRefBody rfl rfl rfl rfl rfl rfl fun _ => rfl
  | raw | rawLong => exact answers_of_dataBody rfl rfl rfl rfl rfl fun j hj => by simp [State.blockAfter, hj]

theorem exec_of_passes (passes : s.firstFailure i = none) : exec i s = .next (s.committed i) := by
  rw [exec_eq, passes, State.outcome]

theorem exec_of_fails {c : Cause} (fails : s.firstFailure i = some c) : exec i s = .next (s.raiseError c) := by
  rw [exec_eq, fails, State.outcome]

end

end Sys2Proof.Machine
end

section
/-! PROOFS. The statements about single commands (spec/43_block_commands.md R144 to R162, spec/60_exceptions.md R212 to
R216). Each is an application of `exec_eq`: of the commit where the checks pass, and of error entry where one fails. -/

namespace Sys2Proof

/-- The two fields of a long count do not overlap, so their OR is a sum (R74). -/
theorem longCount_eq (lf : Nibble) (ext : Byte) : longCount lf ext = 256 * lf.toNat + ext.toNat + 1 := by
  have small : lf.toNat * 2 ^ 8 < 2 ^ 12 := by have := lf.isLt; omega
  have high : (lf.setWidth 12 <<< 8).toNat = lf.toNat <<< 8 := by
    have := lf.isLt
    rw [BitVec.toNat_shiftLeft, BitVec.toNat_setWidth_of_le (by decide), Nat.shiftLeft_eq, Nat.mod_eq_of_lt small]
  rw [longCount, BitVec.toNat_or, high, BitVec.toNat_setWidth_of_le (by decide),
    ← Nat.shiftLeft_add_eq_or_of_lt ext.isLt, Nat.shiftLeft_eq]
  omega

theorem commandLen_of_head {tag : Nibble} {head per : Nat} (hhead : Machine.headLen tag = head)
    (hper : perBlock tag = per) (n : Nat) : commandLen tag n = head + per * n := by
  rw [commandLen_eq_headLen_add, hhead, hper, Nat.mul_comm]

theorem commandLen_of_noData {tag : Nibble} {head : Nat} (hhead : Machine.headLen tag = head) (hper : perBlock tag = 0)
    (n : Nat) : commandLen tag n = head := by
  rw [commandLen_of_head hhead hper, Nat.zero_mul, Nat.add_zero]

end Sys2Proof

namespace Sys2Proof.Machine

/-! ### What a commit leaves -/

section
variable {s : State} {i : Instr}

theorem State.committed_bs (s : State) (i : Instr) :
    (s.committed i).bs = writeBlocks s.bs s.blockPos (s.writes i) := rfl

theorem State.readByte_congr {s t : State} {q : Nat} (same : t.readBlock q = s.readBlock q) (k : Fin 16) :
    t.readByte q k = s.readByte q k := by
  rw [State.readByte, State.readByte, same]

/-- A commit writes no block in front of its range or behind it. -/
theorem State.committed_readBlock_outside {q : Nat} (outside : q < s.blockPos ∨ s.blockPos + i.count ≤ q) :
    (s.committed i).readBlock q = s.readBlock q := by
  have few := s.writes_length_le i
  exact State.readBlock_congr (writeBlocks_outside _ _ _ _ (by rw [State.added_blockPos]; omega)) rfl

/-- Each block of the range holds what the command writes there, if the store has it. -/
theorem State.committed_readBlock_inside {j : Nat} (covered : j < i.count) (stored : s.blockPos + j < s.bs.length) :
    (s.committed i).readBlock (s.blockPos + j) = s.blockAfter i j := by
  cases skip : i.isSkip with
  | true =>
    rw [State.blockAfter_of_isSkip s skip]
    refine State.readBlock_congr ?_ rfl
    rw [State.committed_bs, State.writes_of_isSkip s skip, writeBlocks]
  | false =>
    have written := State.writes_getElem? s skip covered
    refine State.readBlock_of_getElem? ?_
    rw [State.committed_bs, writeBlocks_inside _ _ _ _ (List.getElem?_eq_some_iff.1 written).1 stored, written]

theorem State.committed_tags_outside {q : Nat} (outside : q < s.blockPos ∨ s.blockPos + i.count ≤ q) :
    (s.committed i).tags[q]? = s.tags[q]? := by
  simp only [State.committed, State.commit_tags, State.added_tags, State.added_blockPos]
  split
  · rw [writeTags_getElem?, if_neg (by omega)]
  · rfl

/-- The block writes of a commit in a configured state (R141). -/
theorem blocksWritten_committed (conf : s.Configured) (room : s.blockPos + i.count ≤ s.geo.nb) :
    BlocksWritten s (s.committed i) i.count (s.blockAfter i) := by
  have size := conf.bsSize
  refine ⟨fun j covered k => ?inside, fun q outside k => ?outside, writeBlocks_length _ _ _⟩
  case inside => rw [State.readByte, State.committed_readBlock_inside covered (by omega)]
  case outside => exact State.readByte_congr (State.committed_readBlock_outside outside) k

/-- The tag writes of a commit in a configured state (R144). -/
theorem tagsWritten_committed (conf : s.Configured) (room : s.blockPos + i.count ≤ s.geo.nb) :
    TagsWritten s (s.committed i) i.tag i.count := by
  refine ⟨fun channel => ⟨fun j covered => ?inside, fun q outside => State.committed_tags_outside outside⟩,
    fun noChannel => ?noChannel⟩
  case inside =>
    have size : s.tags.length = s.geo.nb := by rw [conf.tagsLength, State.tagsSize, if_pos channel]
    simp only [State.committed, State.commit_tags, State.added_params, channel, if_true]
    exact (writeTags_getElem? _ _ _ _ _).trans (if_pos ⟨Nat.le_add_right .., by simpa using covered, by
      simp only [State.added_tags]; omega⟩)
  case noChannel => simp [State.committed, noChannel]

theorem State.passes (noRepeat : i.isRepeat = false ∨ 0 < s.blockPos) (valid : s.slotInvalid i = false)
    (room : s.blockPos + i.count ≤ s.geo.nb) (data : i.count ≤ availableBlocks i) : s.firstFailure i = none := by
  rw [State.firstFailure_of_range noRepeat valid, State.rangeFailure_of_inside room data]

/-- What a command whose checks pass leaves of a configured state: its writes, its cursors, and nothing else changed. -/
theorem completes {n len : Nat} (conf : s.Configured) (passes : s.firstFailure i = none) (count : i.count = n)
    (bytes : commandLen i.tag n = len) :
    ∃ t, exec i s = .next t ∧ TagsWritten s t i.tag n ∧ BlocksWritten s t n (s.blockAfter i) ∧
      t = { s with
        bs := t.bs
        tags := t.tags
        cache2 := s.cache2After i
        cache4 := s.cache4After i
        cache8 := s.cache8After i
        readPos := s.readPos + len
        blockPos := s.blockPos + n } := by
  subst count bytes
  have room := (State.inside_of_firstFailure_eq_none passes).1
  exact ⟨_, exec_of_passes passes, tagsWritten_committed conf room, blocksWritten_committed conf room, rfl⟩

/-- The commit of a SKIP writes no block (R145, R146). -/
theorem State.committed_of_isSkip (skip : i.isSkip = true) :
    s.committed i = { s with
      tags := (s.committed i).tags
      readPos := s.readPos + commandLen i.tag i.count
      blockPos := s.blockPos + i.count } := by
  cases i
  case skip | skipLong => rfl
  all_goals cases skip

theorem skip_completes {n len : Nat} (conf : s.Configured) (skip : i.isSkip = true) (passes : s.firstFailure i = none)
    (count : i.count = n) (bytes : commandLen i.tag n = len) :
    ∃ t, exec i s = .next t ∧ TagsWritten s t i.tag n ∧ (∀ q k, t.readByte q k = s.readByte q k) ∧
      t = { s with tags := t.tags, readPos := s.readPos + len, blockPos := s.blockPos + n } := by
  subst count bytes
  have room := (State.inside_of_firstFailure_eq_none passes).1
  have same := State.committed_of_isSkip (s := s) skip
  exact ⟨_, exec_of_passes passes, tagsWritten_committed conf room, fun q k => by rw [same]; rfl, same⟩

end

/-! ### The statements about completion -/

/-- Settles O20: both forms are SKIPs whose checks pass, and a SKIP writes no block. -/
theorem skipCompletes : Obligations.SkipCompletes := by
  intro s lf ext conf
  refine ⟨fun room => ?short, fun room => ?long⟩
  case short =>
    exact skip_completes (i := .skip lf) conf rfl (State.passes (.inl rfl) rfl room le_rfl) rfl
      (commandLen_of_noData rfl rfl _)
  case long =>
    rw [← longCount_eq] at room ⊢
    exact skip_completes (i := .skipLong lf ext) conf rfl (State.passes (.inl rfl) rfl room le_rfl) rfl
      (commandLen_of_noData rfl rfl _)

/-- Settles O21: behind position 0 the only check of a REPEAT is its block range. -/
theorem repeatCompletes : Obligations.RepeatCompletes := by
  intro s lf ext conf later
  refine ⟨fun room => ?short, fun room => ?long⟩
  case short =>
    exact completes (i := .repeatPrev lf) conf (State.passes (.inr later) rfl room le_rfl) rfl
      (commandLen_of_noData rfl rfl _)
  case long =>
    rw [← longCount_eq] at room ⊢
    exact completes (i := .repeatPrevLong lf ext) conf (State.passes (.inr later) rfl room le_rfl) rfl
      (commandLen_of_noData rfl rfl _)

/-- Settles O22: the only check of a SOLID is its block range. -/
theorem solidShortCompletes : Obligations.SolidShortCompletes := by
  intro s lf c conf room
  exact ⟨completes (i := .solid lf c) conf (State.passes (.inl rfl) rfl room le_rfl) rfl
      (commandLen_of_noData rfl rfl _),
    completes (i := .solidSep lf c) conf (State.passes (.inl rfl) rfl room le_rfl) rfl
      (commandLen_of_noData rfl rfl _)⟩

/-- Settles O23: as the short forms, with the sum of R74 for the count. -/
theorem solidLongCompletes : Obligations.SolidLongCompletes := by
  intro s lf ext c conf room
  rw [← longCount_eq] at room ⊢
  exact ⟨completes (i := .solidLong lf ext c) conf (State.passes (.inl rfl) rfl room le_rfl) rfl
      (commandLen_of_noData rfl rfl _),
    completes (i := .solidSepLong lf ext c) conf (State.passes (.inl rfl) rfl room le_rfl) rfl
      (commandLen_of_noData rfl rfl _)⟩

/-- Settles O25: the range is in the store and each block has its group, so every check passes. -/
theorem pal2Completes : Obligations.Pal2Completes := by
  intro s lf pal data conf groups room
  exact completes (i := .pal2 lf pal data) conf (State.passes (.inl rfl) rfl room groups.ge) rfl
    (commandLen_of_head rfl rfl _)

/-- Settles O27: as PAL2, over four bytes a group. -/
theorem pal4Completes : Obligations.Pal4Completes := by
  intro s lf pal data conf groups room
  exact completes (i := .pal4 lf pal data) conf (State.passes (.inl rfl) rfl room groups.ge) rfl
    (commandLen_of_head rfl rfl _)

/-- Settles O29: as PAL2, over six bytes a group. -/
theorem pal8Completes : Obligations.Pal8Completes := by
  intro s lf pal data conf groups room
  exact completes (i := .pal8 lf pal data) conf (State.passes (.inl rfl) rfl room groups.ge) rfl
    (commandLen_of_head rfl rfl _)

/-- Settles O26: the slot check passes, and the palette is the one in the slot. -/
theorem pal2CacheCompletes : Obligations.Pal2CacheCompletes := by
  intro s lf slot data conf valid groups room
  exact completes (i := .pal2Cache lf (BitVec.ofFin slot) data) conf
    (State.passes (.inl rfl) (decide_eq_false valid.not_ge) room groups.ge) rfl (commandLen_of_head rfl rfl _)

/-- Settles O28: as PAL2-cache, through CACHE_4. -/
theorem pal4CacheCompletes : Obligations.Pal4CacheCompletes := by
  intro s lf slot data conf valid groups room
  exact completes (i := .pal4Cache lf (BitVec.ofFin slot) data) conf
    (State.passes (.inl rfl) (decide_eq_false valid.not_ge) room groups.ge) rfl (commandLen_of_head rfl rfl _)

/-- Settles O30: as PAL2-cache, through CACHE_8. -/
theorem pal8CacheCompletes : Obligations.Pal8CacheCompletes := by
  intro s lf slot data conf valid groups room
  exact completes (i := .pal8Cache lf (BitVec.ofFin slot) data) conf
    (State.passes (.inl rfl) (decide_eq_false valid.not_ge) room groups.ge) rfl (commandLen_of_head rfl rfl _)

/-- Settles O31: RAW has the checks of a palette command and copies its groups. -/
theorem rawCompletes : Obligations.RawCompletes := by
  intro s lf ext data conf
  refine ⟨fun groups room => ?short, fun groups room => ?long⟩
  case short =>
    exact completes (i := .raw lf data) conf (State.passes (.inl rfl) rfl room groups.ge) rfl
      (commandLen_of_head rfl rfl _)
  case long =>
    rw [← longCount_eq] at groups room ⊢
    exact completes (i := .rawLong lf ext data) conf (State.passes (.inl rfl) rfl room groups.ge) rfl
      (commandLen_of_head rfl rfl _)

/-! ### The statements about every command -/

/-- Settles O24: the two commands fail the same check, or write the same blocks and take the same bytes. -/
theorem solidSepDiffersOnlyInTags : Obligations.SolidSepDiffersOnlyInTags := by
  intro s lf ext c
  have differ {i j : Instr} (failure : s.firstFailure i = s.firstFailure j)
      (commit : s.committed j = { s.committed i with tags := (s.committed j).tags }) :
      ∃ t u, exec i s = .next t ∧ exec j s = .next u ∧ u = { t with tags := u.tags } := by
    refine ⟨_, _, exec_eq i s, exec_eq j s, ?_⟩
    rw [failure]
    cases s.firstFailure j with
    | none => exact commit
    | some cause => rfl
  exact ⟨differ (i := .solid lf c) (j := .solidSep lf c) rfl rfl,
    differ (i := .solidLong lf ext c) (j := .solidSepLong lf ext c) rfl rfl⟩

section
variable {s : State} {i : Instr}

theorem State.cache2After_ne (h : s.cache2After i ≠ s.cache2) :
    ∃ lf pal data, i = .pal2 lf pal data ∧ s.cache2After i = s.cache2.add pal := by
  cases i
  case pal2 lf pal data => exact ⟨lf, pal, data, rfl, rfl⟩
  all_goals exact absurd rfl h

theorem State.cache4After_ne (h : s.cache4After i ≠ s.cache4) :
    ∃ lf pal data, i = .pal4 lf pal data ∧ s.cache4After i = s.cache4.add pal := by
  cases i
  case pal4 lf pal data => exact ⟨lf, pal, data, rfl, rfl⟩
  all_goals exact absurd rfl h

theorem State.cache8After_ne (h : s.cache8After i ≠ s.cache8) :
    ∃ lf pal data, i = .pal8 lf pal data ∧ s.cache8After i = s.cache8.add pal := by
  cases i
  case pal8 lf pal data => exact ⟨lf, pal, data, rfl, rfl⟩
  all_goals exact absurd rfl h

end

/-- Settles O14: error entry leaves the caches, and the commit makes the add of a literal palette. -/
theorem cachesChangeOnlyByTheirLiteral : Obligations.CachesChangeOnlyByTheirLiteral := by
  intro i s t runs
  rw [exec_eq, Host.Outcome.next.injEq] at runs
  subst runs
  cases s.firstFailure i with
  | some c => exact ⟨absurd rfl, absurd rfl, absurd rfl⟩
  | none => exact ⟨State.cache2After_ne, State.cache4After_ne, State.cache8After_ne⟩

theorem errorEntered_raiseError (s : State) (c : Cause) : ErrorEntered s (s.raiseError c) c := rfl

/-- Settles O36: the first check that fails decides, and it is of the stream. -/
theorem commandsCommitWholeOrNotAtAll : Obligations.CommandsCommitWholeOrNotAtAll := by
  intro i s
  refine ⟨_, exec_eq i s, ?_⟩
  cases failure : s.firstFailure i with
  | some c => exact .inr ⟨c, State.firstFailure_ofStream failure, errorEntered_raiseError s c⟩
  | none =>
    have room := (State.inside_of_firstFailure_eq_none failure).1
    exact .inl ⟨room, fun conf => ⟨blocksWritten_committed conf room, tagsWritten_committed conf room⟩,
      fun q k outside => State.readByte_congr (State.committed_readBlock_outside outside) k,
      fun q outside => State.committed_tags_outside outside, rfl⟩

/-! ### The statements about errors -/

section
variable {s : State} {i : Instr}

theorem enters_error {c : Cause} (fails : s.firstFailure i = some c) :
    ∃ t, exec i s = .next t ∧ ErrorEntered s t c :=
  ⟨_, exec_of_fails fails, errorEntered_raiseError s c⟩

theorem enters_blockOverrun (noData : groupCount i = none) (noRepeat : i.isRepeat = false ∨ 0 < s.blockPos)
    (noSlot : s.slotInvalid i = false) (beyond : s.geo.nb < s.blockPos + i.count) :
    ∃ t, exec i s = .next t ∧ ErrorEntered s t .blockOverrun := by
  refine enters_error ?_
  rw [State.firstFailure_of_range noRepeat noSlot, availableBlocks_of_none noData,
    State.rangeFailure_of_overrun beyond beyond.le]

end

/-- Settles O32: the block range is the first check that fails. -/
theorem rangePastTheStoreRaises : Obligations.RangePastTheStoreRaises := by
  intro s lf ext c
  refine ⟨fun beyond => ?short, fun beyond => ?long⟩
  case short =>
    exact ⟨enters_blockOverrun rfl (.inl rfl) rfl beyond, fun later => enters_blockOverrun rfl (.inr later) rfl beyond,
      enters_blockOverrun rfl (.inl rfl) rfl beyond, enters_blockOverrun rfl (.inl rfl) rfl beyond⟩
  case long =>
    rw [← longCount_eq] at beyond
    exact ⟨enters_blockOverrun rfl (.inl rfl) rfl beyond, fun later => enters_blockOverrun rfl (.inr later) rfl beyond,
      enters_blockOverrun rfl (.inl rfl) rfl beyond, enters_blockOverrun rfl (.inl rfl) rfl beyond⟩

/-- Settles O33: position 0 is checked before the block range. -/
theorem repeatAtZeroRaises : Obligations.RepeatAtZeroRaises := by
  intro s lf ext atZero
  exact ⟨enters_error (State.firstFailure_of_repeatAtZero rfl atZero),
    enters_error (State.firstFailure_of_repeatAtZero rfl atZero)⟩

/-- Settles O34: the slot is checked before every block. -/
theorem invalidSlotRaises : Obligations.InvalidSlotRaises := by
  intro s lf slot
  exact ⟨fun data invalid => enters_error (State.firstFailure_of_slotInvalid (decide_eq_true invalid)),
    fun data invalid => enters_error (State.firstFailure_of_slotInvalid (decide_eq_true invalid)),
    fun data invalid => enters_error (State.firstFailure_of_slotInvalid (decide_eq_true invalid))⟩

end Sys2Proof.Machine
end

section
/-! PROOFS. The statements about the host requests (spec/45_host_interface.md R191 to R196, spec/70_reset_and_hazards.md R240
to R242), with one lemma for each branch of the admission of a frame and of CONSTRUCT. -/

namespace Sys2Proof.Machine

/-! ### The branches of the requests -/

section
variable (s : State)

@[simp] theorem State.serve_reset : s.serve .reset = s.hardwareReset := rfl
@[simp] theorem State.serve_decodeFrame (input : List Byte) (debug : Bool) :
    s.serve (.decodeFrame input debug) = s.admitFrame input debug := rfl

end

theorem exceeds_none (size : Int) : exceeds size none = false := rfl

theorem exceeds_some {size : Int} {m : Nat} : exceeds size (some m) = true ↔ size > m := decide_eq_true_iff

section
variable {s : State} {input : List Byte} {debug : Bool}

theorem State.admitFrame_of_unconfigured (h : s.cfg = .unconfigured) :
    s.admitFrame input debug = s.refuse .notConfigured :=
  if_pos (by rw [h]; decide)

theorem State.admitFrame_of_tooLong (h : s.cfg = .ready)
    (long : exceeds input.length s.params.maxInputBytes = true) :
    s.admitFrame input debug = s.refuse .inputTooLarge :=
  (if_neg (not_not.2 h)).trans (if_pos long)

theorem State.admitFrame_of_admitted (h : s.cfg = .ready) (within : withinBound input.length s.params.maxInputBytes) :
    s.admitFrame input debug = s.beginFrame input debug :=
  (if_neg (not_not.2 h)).trans (if_neg (by simp [within]))

variable {w h : Int}

theorem State.construct_of_nonpositive (bad : w ≤ 0 ∨ h ≤ 0) : s.construct w h = s.failConstruct .geomNonpositive :=
  if_pos bad

theorem State.construct_of_tooLarge (hw : 0 < w) (hh : 0 < h)
    (large : exceeds w s.params.maxWidth = true ∨ exceeds h s.params.maxHeight = true) :
    s.construct w h = s.failConstruct .geomTooLarge :=
  (if_neg (by omega)).trans (if_pos large)

theorem State.construct_of_within (hw : 0 < w) (hh : 0 < h) (widthIn : exceeds w s.params.maxWidth = false)
    (heightIn : exceeds h s.params.maxHeight = false) : s.construct w h = s.configure w.toNat h.toNat :=
  (if_neg (by omega)).trans (if_neg (by simp [widthIn, heightIn]))

theorem State.destroy_of_ready (ready : s.cfg = .ready) :
    s.destroy = { s.forget with cfg := .unconfigured, status := .zero } :=
  if_pos ready

theorem State.destroy_of_unconfigured (unconfigured : s.cfg = .unconfigured) : s.destroy = { s with status := .zero } :=
  if_neg (by rw [unconfigured]; decide)

/-- STATUS after a failed CONSTRUCT, as the host reads it (R194). -/
theorem State.failConstruct_report (c : Cause) : (s.failConstruct c).report =
    { kind := c.kind.code, cause := c.code, posRead := 0, posBlock := 0, cfg := .unconfigured } := rfl

/-- STATUS after a refused frame, as the host reads it. -/
theorem State.refuse_report (c : Cause) : (s.refuse c).report =
    { kind := c.kind.code, cause := c.code, posRead := 0, posBlock := 0, cfg := s.cfg } := rfl

/-- With no frame in progress, a step leaves what serving the request that comes next leaves. -/
theorem step_of_serve {t : State} {r : Request} {rest : List Request} (between : s.frame = none)
    (next : s.requests = r :: rest) (serve : ({ s with requests := rest } : State).serve r = t) : step s = .next t := by
  rw [step_request between next, serve]

end

/-! ### The statements -/

/-- Settles O46: the admitted branch is `beginFrame`. -/
theorem admittedFrameStartsFresh : Obligations.AdmittedFrameStartsFresh := by
  intro s input debug rest between ready next within
  exact step_of_serve between next (State.admitFrame_of_admitted ready within)

/-- Settles O47: CFG_STATE is looked at first. -/
theorem unconfiguredDecodeIsRefused : Obligations.UnconfiguredDecodeIsRefused := by
  intro s input debug rest between unconfigured next
  refine ⟨_, step_of_serve between next (State.admitFrame_of_unconfigured unconfigured), rfl, ?_⟩
  exact (State.refuse_report _).trans (by rw [unconfigured]; rfl)

/-- Settles O48: on a READY core the bound decides. -/
theorem tooLongInputIsRefused : Obligations.TooLongInputIsRefused := by
  intro s input debug rest between ready next
  refine ⟨fun m bound long => ?refused, fun noBound => ?begun⟩
  case refused =>
    have exceeded : exceeds input.length s.params.maxInputBytes = true := by
      rw [bound, exceeds_some]
      exact Int.ofNat_lt.2 long
    refine ⟨_, step_of_serve between next (State.admitFrame_of_tooLong ready exceeded), rfl, ?_⟩
    exact (State.refuse_report _).trans (by rw [ready]; rfl)
  case begun =>
    have within : withinBound input.length s.params.maxInputBytes := by rw [noBound]; exact exceeds_none _
    exact ⟨_, step_of_serve between next (State.admitFrame_of_admitted ready within), rfl⟩

/-- Settles O49: the sizes of the stores are those of the form that `configure` gives the arrays. -/
theorem constructConfigures : Obligations.ConstructConfigures := by
  intro s w h rest between next hw hh widthIn heightIn
  obtain ⟨store, -, tags⟩ := (Memory.wf_iff _).1 (configure_memory_wf { s with requests := rest } w h) rfl
  exact ⟨_, step_of_serve between next
    (State.construct_of_within (Int.natCast_pos.2 hw) (Int.natCast_pos.2 hh) widthIn heightIn), store, tags, rfl⟩

/-- Settles O50: the sizes are looked at before the bounds, and either bound is enough. -/
theorem badGeometryIsRefused : Obligations.BadGeometryIsRefused := by
  intro s w h rest between next
  refine ⟨fun bad => ?nonpositive, fun hw hh beyond => ?tooLarge⟩
  case nonpositive =>
    exact ⟨_, step_of_serve between next (State.construct_of_nonpositive bad), between, State.failConstruct_report _⟩
  case tooLarge =>
    have exceeded : exceeds w s.params.maxWidth = true ∨ exceeds h s.params.maxHeight = true := by
      obtain ⟨m, bound, larger⟩ | ⟨m, bound, larger⟩ := beyond
      · exact .inl (by rw [bound]; exact exceeds_some.2 larger)
      · exact .inr (by rw [bound]; exact exceeds_some.2 larger)
    exact ⟨_, step_of_serve between next (State.construct_of_tooLarge hw hh exceeded), between,
      State.failConstruct_report _⟩

/-- Settles O51: on a READY core everything is released, on an UNCONFIGURED one only STATUS is written. -/
theorem destroyReleases : Obligations.DestroyReleases := by
  intro s rest between next
  cases configuration : s.cfg with
  | ready =>
    exact ⟨_, step_of_serve between next (State.destroy_of_ready configuration), rfl, rfl, rfl, rfl, rfl, rfl, nofun⟩
  | unconfigured =>
    refine ⟨_, step_of_serve between next (State.destroy_of_unconfigured configuration), configuration, rfl, rfl, rfl,
      rfl, rfl, fun _ => ?_⟩
    rw [← configuration]

/-- Settles O53: the request served is the reset itself. -/
theorem hardwareResetClears : Obligations.HardwareResetClears := by
  intro s rest between next
  exact ⟨_, step_of_serve between next (State.serve_reset _), rfl, rfl, rfl, rfl, rfl, rfl, rfl, rfl, rfl, rfl, rfl,
    between, rfl, rfl, rfl⟩

/-- Settles O54: the fields of `State.reset`. -/
theorem resetStateHasTheSpecValues : Obligations.ResetStateHasTheSpecValues :=
  ⟨rfl, rfl, rfl, rfl, rfl, rfl, rfl, rfl, rfl, rfl, rfl⟩

/-- Settles O55: with no frame a step is `idle`, which waits where no request comes. -/
theorem idleCoreWaits : Obligations.IdleCoreWaits := by
  intro s between empty
  rw [step_idle between, State.idle, empty]

/-- Settles O56: the codes of the tables R210 and R211. -/
theorem causesHaveTheirCodes : Obligations.CausesHaveTheirCodes := by
  simp only [Obligations.CausesHaveTheirCodes, List.map_cons, List.map_nil, Cause.code, Cause.kind, Kind.code]

end Sys2Proof.Machine
end

section
/-! PROOFS. The decode pass (spec/43_block_commands.md R140 to R166). `step_of_truncated` says which error a command that
the end of the frame cuts short enters, and `step_turn` says all that one turn of the pass can do; the statements about
steps and runs of a frame in progress follow from the two. -/

namespace Sys2Proof.Machine

/-! ### Commands that the end of the frame cuts short -/

/-- The cause of a frame that ends inside the head of a command: EXT first, then the fixed payload (R216). -/
def headCause (bytes : List Byte) : Cause :=
  if isLong (headerTag (bytes.getD 0 0)) ∧ bytes.length < 2 then .truncExt else fixedCause (headerTag (bytes.getD 0 0))

section
variable {s : State} {f : Frame} {i : Instr} {bytes : List Byte}

theorem runDecoded_fixedError (tag : Nibble) :
    s.runDecoded f (.error (fixedError tag)) = .next (s.raiseError (fixedCause tag)) := by
  obtain h | h | h | h | h | h | h | h | h | h | h | h | h | h | h | h := tag_cases tag <;> subst h <;> rfl

theorem runDecoded_headError : s.runDecoded f (.error (headError bytes)) = .next (s.raiseError (headCause bytes)) := by
  unfold headError headCause
  split
  · rfl
  · exact runDecoded_fixedError _

theorem fixedCause_ofStream (tag : Nibble) : (fixedCause tag).ofStream = true := by
  revert tag; decide

theorem State.truncatedCause_ofStream (s : State) (bytes : List Byte) : (s.truncatedCause bytes).ofStream = true := by
  unfold State.truncatedCause
  split
  · rfl
  split
  · exact fixedCause_ofStream _
  split
  · rfl
  split <;> rfl

theorem State.truncatedCause_of_headShort (short : bytes.length < headLen (headerTag (bytes.getD 0 0))) :
    s.truncatedCause bytes = headCause bytes := by
  rw [State.truncatedCause, headCause, if_pos short]

/-- Where the head is there, EXT is. -/
theorem two_le_length {tag : Nibble} (long : isLong tag = true) (head : headLen tag ≤ bytes.length) :
    2 ≤ bytes.length := by
  rw [headLen, if_pos long] at head
  omega

theorem State.truncatedCause_of_head (head : headLen (headerTag (bytes.getD 0 0)) ≤ bytes.length) :
    s.truncatedCause bytes =
      if s.slotRefused bytes then .cacheIndex
      else if s.blockPos + groupsThere bytes < s.geo.nb then .truncBlockdata else .blockOverrun := by
  rw [State.truncatedCause, if_neg, if_neg head.not_gt]
  rintro ⟨long, short⟩
  exact absurd (two_le_length long head) short.not_ge

/-- The byte behind the header of a cache reference is its slot (R154). -/
theorem State.slotRefused_encode (s : State) (i : Instr) (rest : List Byte) :
    s.slotRefused (encode i ++ rest) = s.slotInvalid i := by
  rw [State.slotRefused, headerTag_encode]
  cases i <;> rfl

theorem isRepeat_of_groupCount_some {k : Nat} (h : groupCount i = some k) : i.isRepeat = false := by
  cases i
  case repeatPrev | repeatPrevLong => cases h
  all_goals rfl

/-- A command with fewer groups than blocks fails the check of R216 that its bytes name. -/
theorem State.firstFailure_of_few {rest : List Byte} (groups : groupCount i = some (groupsThere bytes))
    (few : groupsThere bytes < i.count) (split : bytes = encode i ++ rest) :
    s.firstFailure i = some (s.truncatedCause bytes) := by
  have head : headLen (headerTag (bytes.getD 0 0)) ≤ bytes.length := by
    rw [split, headerTag_encode, List.length_append, encode_length]
    omega
  rw [State.truncatedCause_of_head head]
  cases valid : s.slotInvalid i with
  | true =>
    rw [State.firstFailure_of_slotInvalid valid, if_pos]
    rw [split, State.slotRefused_encode, valid]
  | false =>
    rw [State.firstFailure_of_range (.inl (isRepeat_of_groupCount_some groups)) valid, availableBlocks_of_some groups,
      if_neg]
    · split_ifs with inside
      · exact State.rangeFailure_of_missing few inside
      · exact State.rangeFailure_of_overrun (by omega) (not_lt.1 inside)
    · rw [split, State.slotRefused_encode, valid]
      exact Bool.false_ne_true

/-- What runs on bytes that begin a command and end before it does. -/
theorem runDecoded_of_truncated (nonempty : bytes ≠ []) (truncated : bytes.length < commandLenAt bytes) :
    s.runDecoded f (decode bytes) = .next (s.raiseError (s.truncatedCause bytes)) := by
  by_cases short : bytes.length < headLen (headerTag (bytes.getD 0 0))
  · rw [decode_of_headShort nonempty short, runDecoded_headError, State.truncatedCause_of_headShort short]
  · have read := reads_decode bytes
    generalize decode bytes = answer at read
    cases read with
    | nothing empty => exact absurd empty nonempty
    | headShort _ short' => exact absurd short' short
    | whole i rest wf split =>
      rw [split, commandLenAt_encode, List.length_append, encode_length_of_wf wf] at truncated
      omega
    | dataShort i rest groups few split => exact exec_of_fails (State.firstFailure_of_few groups few split)

theorem State.unread_ne_nil : s.unread f ≠ [] ↔ s.readPos < f.input.length := by
  rw [State.unread, Ne, List.drop_eq_nil_iff, not_le]

/-- With bytes unread, a step runs what the decoder reads in them (R141). -/
theorem step_decode (frame : s.frame = some f) (left : s.readPos < f.input.length) :
    step s = s.runDecoded f (decode (s.unread f)) := by
  rw [step_command frame left, State.runCommand]

theorem step_of_truncated (frame : s.frame = some f) (left : s.readPos < f.input.length)
    (truncated : (s.unread f).length < commandLenAt (s.unread f)) :
    step s = .next (s.raiseError (s.truncatedCause (s.unread f))) := by
  rw [step_decode frame left, runDecoded_of_truncated (State.unread_ne_nil.2 left) truncated]

theorem step_of_decode_ok {rest : List Byte} (frame : s.frame = some f) (answer : decode (s.unread f) = .ok (i, rest)) :
    step s = exec i s := by
  have left : s.readPos < f.input.length := by
    rw [← State.unread_ne_nil]
    intro empty
    rw [empty] at answer
    cases answer
  rw [step_decode frame left, answer, State.runDecoded]

/-! ### All that one turn of the pass can do -/

/-- One turn of the pass: a whole command commits, a command enters an error of the stream, or the frame ends. -/
inductive Turn (s : State) (f : Frame) : State → Prop
  | command (i : Instr) (rest : List Byte) (wf : i.wf = true) (split : s.unread f = encode i ++ rest)
      (passes : s.firstFailure i = none) : Turn s f (s.committed i)
  | error (c : Cause) (ofStream : c.ofStream = true) : Turn s f (s.raiseError c)
  | finish (atEnd : f.input.length ≤ s.readPos) : Turn s f (s.finishFrame f)

theorem step_turn (frame : s.frame = some f) : ∃ t, step s = .next t ∧ Turn s f t := by
  by_cases left : s.readPos < f.input.length
  · by_cases truncated : (s.unread f).length < commandLenAt (s.unread f)
    · exact ⟨_, step_of_truncated frame left truncated, .error _ (s.truncatedCause_ofStream _)⟩
    · obtain ⟨i, rest, answer, -⟩ := decode_eq_ok_of_commandLenAt_le (not_lt.1 truncated)
      obtain ⟨wf, split⟩ := decodedBytesAreTheEncoding _ _ _ answer
      refine ⟨_, (step_of_decode_ok frame answer).trans (exec_eq i s), ?_⟩
      cases failure : s.firstFailure i with
      | none => exact .command i rest wf split failure
      | some c => exact .error c (State.firstFailure_ofStream failure)
  · exact ⟨_, step_finish frame left, .finish (not_lt.1 left)⟩

/-- A command that was decoded whole lies within the frame, and takes at least one byte of it. -/
theorem readPos_add_commandLen_le {rest : List Byte} (wf : i.wf = true) (split : s.unread f = encode i ++ rest) :
    s.readPos + commandLen i.tag i.count ≤ f.input.length := by
  have pos := commandLen_pos i.tag i.count
  have total : f.input.length - s.readPos = commandLen i.tag i.count + rest.length := by
    rw [← encode_length_of_wf wf, ← List.length_append, ← split, State.unread, List.length_drop]
  omega

end

/-! ### The statements about one step -/

/-- Settles O37: bytes that decode to a command are not empty, so the pass is not at its end. -/
theorem stepRunsTheDecodedCommand : Obligations.StepRunsTheDecodedCommand :=
  fun _ _ _ _ frame answer => step_of_decode_ok frame answer

/-- Settles O39: the truncated command enters the error that `truncatedCause` names. -/
theorem truncatedCommandNeverCommits : Obligations.TruncatedCommandNeverCommits := by
  intro s f frame left truncated
  exact ⟨_, step_of_truncated frame left truncated, s.truncatedCause_ofStream _, errorEntered_raiseError s _⟩

/-- A step at a header whose head is not all there. -/
theorem step_of_headShort {s : State} {f : Frame} {h : Byte} {p : List Byte} (frame : s.frame = some f)
    (bytes : f.input.drop s.readPos = h :: p) (short : p.length + 1 < headLen (headerTag h)) :
    ∃ t, step s = .next t ∧ ErrorEntered s t (headCause (h :: p)) := by
  have unread : s.unread f = h :: p := bytes
  have left : s.readPos < f.input.length := State.unread_ne_nil.1 (by rw [unread]; exact List.cons_ne_nil _ _)
  have cause : s.truncatedCause (h :: p) = headCause (h :: p) := State.truncatedCause_of_headShort short
  refine ⟨_, step_of_truncated frame left ?_, ?_⟩
  · rw [unread]
    exact Nat.lt_of_lt_of_le short (headLen_le_commandLen _ _)
  · rw [unread, cause]
    exact errorEntered_raiseError s _

/-- A step at a header whose EXT, if it has one, is there and whose fixed payload is not all there. -/
theorem step_of_fixedShort {s : State} {f : Frame} {h : Byte} {p : List Byte} {tag : Nibble} (frame : s.frame = some f)
    (bytes : f.input.drop s.readPos = h :: p) (header : headerTag h = tag) (ext : isLong tag = true → 1 ≤ p.length)
    (short : p.length + 1 < headLen tag) : ∃ t, step s = .next t ∧ ErrorEntered s t (fixedCause tag) := by
  subst header
  have cause : headCause (h :: p) = fixedCause (headerTag h) := by
    refine if_neg ?_
    rintro ⟨long, noExt⟩
    exact absurd (ext long) (Nat.not_le.2 (Nat.succ_lt_succ_iff.1 noExt))
  rw [← cause]
  exact step_of_headShort frame bytes short

/-- Settles O38: bytes that end inside the head raise what their tag names. -/
theorem missingFixedBytesRaise : Obligations.MissingFixedBytesRaise := by
  intro s f h p frame bytes
  refine ⟨fun long empty => ?ext, ?shortColour, ?longColour, ?selector, fun tag few => ?palette2,
    fun tag few => ?palette4, fun tag few => ?palette8⟩
  case ext =>
    subst empty
    have cause : headCause [h] = .truncExt := if_pos ⟨long, Nat.one_lt_two⟩
    rw [← cause]
    refine step_of_headShort frame bytes ?_
    rw [headLen, if_pos long, List.length_nil]
    omega
  case shortColour =>
    rintro (tag | tag) rfl
    · exact step_of_fixedShort frame bytes tag (by decide) (by decide)
    · exact step_of_fixedShort frame bytes tag (by decide) (by decide)
  case longColour =>
    rintro (tag | tag) one
    · exact step_of_fixedShort frame bytes tag (fun _ => one.ge) (by rw [one]; decide)
    · exact step_of_fixedShort frame bytes tag (fun _ => one.ge) (by rw [one]; decide)
  case selector =>
    rintro (tag | tag | tag) rfl
    · exact step_of_fixedShort frame bytes tag (by decide) (by decide)
    · exact step_of_fixedShort frame bytes tag (by decide) (by decide)
    · exact step_of_fixedShort frame bytes tag (by decide) (by decide)
  case palette2 => exact step_of_fixedShort frame bytes tag nofun (Nat.succ_lt_succ few)
  case palette4 => exact step_of_fixedShort frame bytes tag nofun (Nat.succ_lt_succ few)
  case palette8 => exact step_of_fixedShort frame bytes tag nofun (Nat.succ_lt_succ few)

/-- Settles O42: the step is `finishFrame`, which leaves BS. -/
theorem partialCoverageIsLegal : Obligations.PartialCoverageIsLegal := by
  intro s f frame atEnd _
  exact ⟨_, step_finish frame atEnd.not_lt, rfl, fun _ _ _ => rfl⟩

/-- Settles O43: a commit keeps the frame, error entry and the end of the frame end it, and none of the three writes the
configuration. -/
theorem frameKeepsItsConfiguration : Obligations.FrameKeepsItsConfiguration := by
  intro s t f frame answer
  obtain ⟨u, stepped, turn⟩ := step_turn frame
  rw [stepped, Host.Outcome.next.injEq] at answer
  subst answer
  cases turn with
  | command i => exact ⟨rfl, rfl, rfl, rfl, rfl, rfl, .inl frame⟩
  | error c => exact ⟨rfl, rfl, rfl, rfl, rfl, rfl, .inr rfl⟩
  | finish => exact ⟨rfl, rfl, rfl, rfl, rfl, rfl, .inr rfl⟩

/-- Settles O57: with a frame the turn of the pass answers, and without one the requests do. -/
theorem everyStepAnswersANextState : Obligations.EveryStepAnswersANextState := by
  intro s
  cases frame : s.frame with
  | none => exact ⟨_, step_idle frame⟩
  | some f =>
    obtain ⟨t, stepped, -⟩ := step_turn frame
    exact ⟨t, stepped⟩

/-- A command with data reports the first block that fails (R143). -/
theorem failsInOrder_exec {s : State} {i : Instr} {k : Nat} (groups : groupCount i = some k)
    (valid : s.slotInvalid i = false) : FailsInOrder s i.count k (exec i s) := by
  have failure := State.firstFailure_of_range (.inl (isRepeat_of_groupCount_some groups)) valid
  rw [availableBlocks_of_some groups] at failure
  intro j covered before
  have allThere : j ≤ k := by
    cases j with
    | zero => exact Nat.zero_le k
    | succ j => exact (before j (Nat.lt_succ_self j)).2
  refine ⟨fun beyond => ?overrun, fun inside missing => ?truncated⟩
  case overrun => exact enters_error (failure.trans (State.rangeFailure_of_overrun (by omega) (by omega)))
  case truncated => exact enters_error (failure.trans (State.rangeFailure_of_missing (by omega) (by omega)))

/-- Groups past the last block make no difference to the order of the failures. -/
theorem FailsInOrder.of_min {s : State} {count avail : Nat} {run : Result}
    (h : FailsInOrder s count (min count avail) run) : FailsInOrder s count avail run := by
  intro j covered before
  obtain ⟨beyond, truncated⟩ := h j covered fun i hi => ⟨(before i hi).1, lt_min (hi.trans covered) (before i hi).2⟩
  exact ⟨beyond, fun inside missing => truncated inside ((min_le_right _ _).trans missing)⟩

/-- A whole command with data has no more blocks than the groups behind its head. -/
theorem count_le_groupsThere {i : Instr} {bytes rest : List Byte} (wf : i.wf = true) (data : 0 < perBlock i.tag)
    (split : bytes = encode i ++ rest) : i.count ≤ groupsThere bytes := by
  have len := encode_length_of_wf wf
  rw [commandLen_eq_headLen_add] at len
  rw [groupsThere, split, headerTag_encode, Nat.le_div_iff_mul_le data, List.length_append]
  omega

/-- A step at a command with data whose head is there and whose slot, if it names one, is valid. -/
theorem failsInOrder_step {s : State} {f : Frame} (frame : s.frame = some f)
    (data : 0 < perBlock (headerTag ((s.unread f).getD 0 0)))
    (head : headLen (headerTag ((s.unread f).getD 0 0)) ≤ (s.unread f).length)
    (valid : s.slotRefused (s.unread f) = false) :
    FailsInOrder s (wordCount (s.unread f)) (groupsThere (s.unread f)) (step s) := by
  have left : s.readPos < f.input.length := by
    rw [← State.unread_ne_nil, ← List.length_pos_iff]
    exact (headLen_pos _).trans_le head
  rw [step_decode frame left]
  have read := reads_decode (s.unread f)
  generalize s.unread f = bytes at *
  generalize decode bytes = answer at read
  cases read with
  | nothing empty => exact absurd head (by rw [empty]; decide)
  | headShort _ short => exact absurd head short.not_ge
  | whole i rest wf split =>
    rw [split, headerTag_encode] at data
    have enough := count_le_groupsThere wf data split
    have groups : groupCount i = some i.count := by
      cases groups : groupCount i with
      | none => exact absurd (perBlock_of_groupCount_none i groups) data.ne'
      | some k => rw [(wf_iff_groupCount i).1 wf k groups]
    have count : wordCount bytes = i.count := by rw [split, wordCount_encode]
    rw [split, State.slotRefused_encode] at valid
    rw [count]
    refine .of_min ?_
    rw [min_eq_left enough]
    exact failsInOrder_exec groups valid
  | dataShort i rest groups few split =>
    have count : wordCount bytes = i.count := by rw [split, wordCount_encode]
    rw [count]
    rw [split, State.slotRefused_encode] at valid
    exact failsInOrder_exec groups valid

/-- Settles O35: every such term, and every such step, fails at its first failing block. -/
theorem dataCommandsFailInOrder : Obligations.DataCommandsFailInOrder := by
  intro s lf ext slot
  refine ⟨fun pal data => ?_, fun pal data => ?_, fun pal data => ?_, fun data valid => ?_, fun data valid => ?_,
    fun data valid => ?_, fun data => ?_, fun data => ?_, fun f frame data head valid => ?step⟩
  · exact failsInOrder_exec (i := .pal2 lf pal data) rfl rfl
  · exact failsInOrder_exec (i := .pal4 lf pal data) rfl rfl
  · exact failsInOrder_exec (i := .pal8 lf pal data) rfl rfl
  · exact failsInOrder_exec (i := .pal2Cache lf slot data) rfl (decide_eq_false valid.not_ge)
  · exact failsInOrder_exec (i := .pal4Cache lf slot data) rfl (decide_eq_false valid.not_ge)
  · exact failsInOrder_exec (i := .pal8Cache lf slot data) rfl (decide_eq_false valid.not_ge)
  · exact failsInOrder_exec (i := .raw lf data) rfl rfl
  · rw [← longCount_eq]
    exact failsInOrder_exec (i := .rawLong lf ext data) rfl rfl
  case step => exact failsInOrder_step frame data head valid

/-! ### The statements about runs -/

/-- Settles O44: a step of the pass ends the frame, or takes at least one of its bytes. -/
theorem passTerminates : Obligations.PassTerminates := by
  intro s f frame
  induction unread : f.input.length - s.readPos using Nat.strong_induction_on generalizing s with
  | _ left ih =>
    subst unread
    obtain ⟨t, stepped, turn⟩ := step_turn frame
    cases turn with
    | error c => exact ⟨1, _, Nat.le_add_left .., (run_succ stepped 0).trans (run_zero _), rfl, rfl⟩
    | finish => exact ⟨1, _, Nat.le_add_left .., (run_succ stepped 0).trans (run_zero _), rfl, rfl⟩
    | command i rest wf split =>
      have inFrame := readPos_add_commandLen_le wf split
      have taken := commandLen_pos i.tag i.count
      have next : (s.committed i).readPos = s.readPos + commandLen i.tag i.count := rfl
      obtain ⟨n, t, few, runs, ended, requests⟩ := ih _ (by omega) (s.committed i) frame rfl
      exact ⟨n + 1, t, by omega, (run_succ stepped n).trans runs, ended, requests⟩

section
variable {s : State} {f : Frame} {i : Instr}

theorem wf_of_isSkip (skip : i.isSkip = true) : i.wf = true := by
  cases i
  case skip | skipLong => rfl
  all_goals cases skip

theorem State.firstFailure_of_isSkip (skip : i.isSkip = true) (room : s.blockPos + i.count ≤ s.geo.nb) :
    s.firstFailure i = none := by
  cases i
  case skip | skipLong => exact State.passes (.inl rfl) rfl room le_rfl
  all_goals cases skip

/-- A step at a SKIP whose blocks are in the store. -/
theorem step_of_skip {rest : List Byte} (frame : s.frame = some f) (unread : s.unread f = encode i ++ rest)
    (skip : i.isSkip = true) (room : s.blockPos + i.count ≤ s.geo.nb) : step s = .next (s.committed i) := by
  have answer : decode (s.unread f) = .ok (i, rest) := by
    rw [unread, decodeOfEncodeGivesTheCommand i rest (wf_of_isSkip skip)]
  rw [step_of_decode_ok frame answer, exec_of_passes (State.firstFailure_of_isSkip skip room)]

theorem State.unread_committed {rest : List Byte} (wf : i.wf = true) (unread : s.unread f = encode i ++ rest) :
    (s.committed i).unread f = rest := by
  change f.input.drop (s.readPos + commandLen i.tag i.count) = rest
  rw [← List.drop_drop, ← State.unread, unread, ← encode_length_of_wf wf, List.drop_left]

/-- The image of a state is that of its BS, which a SKIP leaves as it is (R184). -/
theorem raster_of_skip (skip : i.isSkip = true) :
    (s.committed i).raster (s.committed i).pixel = s.raster s.pixel := by
  rw [State.committed_of_isSkip skip]
  rfl

/-- A frame in progress of which only SKIP commands are unread runs to its end. -/
theorem run_of_skips {cmds : List Instr} (frame : s.frame = some f) (unread : s.unread f = cmds.flatMap encode)
    (skips : ∀ i ∈ cmds, i.isSkip = true) (room : s.blockPos + (cmds.map Instr.count).sum ≤ s.geo.nb) :
    ∃ t, core.run (cmds.length + 1) s = .next t ∧ t.frame = none ∧ t.out = s.raster s.pixel ∧ t.bs = s.bs ∧
      t.requests = s.requests ∧
      t.status = Cause.noError.status f.input.length (s.blockPos + (cmds.map Instr.count).sum) := by
  induction cmds generalizing s with
  | nil =>
    have atEnd : ¬ s.readPos < f.input.length := by
      rw [← State.unread_ne_nil, not_not]
      exact unread
    exact ⟨_, (run_succ (step_finish frame atEnd) 0).trans (run_zero _), rfl, rfl, rfl, rfl, rfl⟩
  | cons i cmds ih =>
    rw [List.forall_mem_cons] at skips
    obtain ⟨skip, skips⟩ := skips
    rw [List.flatMap_cons] at unread
    rw [List.map_cons, List.sum_cons, ← Nat.add_assoc] at room ⊢
    have stepped := step_of_skip frame unread skip (by omega)
    obtain ⟨t, runs, ended, out, bs, requests, status⟩ :=
      ih (s := s.committed i) frame (State.unread_committed (wf_of_isSkip skip) unread) skips room
    have store : (s.committed i).bs = s.bs := by rw [State.committed_of_isSkip skip]
    exact ⟨t, (run_succ stepped _).trans runs, ended, out.trans (raster_of_skip skip), bs.trans store, requests, status⟩

end

/-- Settles O45: the frame begins with the cursors at 0, and its SKIPs leave the BS of which OUT holds the image. -/
theorem skipFrameKeepsTheImage : Obligations.SkipFrameKeepsTheImage := by
  intro s cmds debug rest _ ready between next skips room within image
  have begun := step_of_serve between next (State.admitFrame_of_admitted ready within)
  obtain ⟨t, runs, ended, out, bs, requests, status⟩ :=
    run_of_skips (s := ({ s with requests := rest } : State).beginFrame (cmds.flatMap encode) debug) rfl rfl skips
      ((Nat.zero_add _).trans_le room)
  refine ⟨t, (run_succ begun _).trans runs, ended, out.trans image.symm, bs, requests, ?_⟩
  rw [status]
  exact congrArg _ (Nat.zero_add _)

end Sys2Proof.Machine
end

section
/-! PROOFS. The palette caches over an epoch (spec/10_state.md R31, spec/42_palette_cache.md R135): every add keeps a cache
sound, and after the adds of an epoch the last 256 of them are in the slots of their numbers mod 256. -/

namespace Sys2Proof.Machine

theorem Cache.reset_sound {c : Nat} (k : Cache c) : k.reset.Sound := by
  refine ⟨by simp, fun pos => ?_, by simp⟩
  rw [Cache.reset_count] at pos
  exact absurd pos (Nat.lt_irrefl 0)

/-- While slots are unused, the next add goes to slot COUNT_c (R31(a), R31(b)). -/
theorem Cache.Sound.nextHead_of_lt {c : Nat} {k : Cache c} (sound : k.Sound) (free : k.count < 256) :
    k.nextHead.val = k.count := by
  obtain ⟨noHead, latest, -⟩ := sound
  rcases Nat.eq_zero_or_pos k.count with empty | used
  · rw [k.nextHead_of_none (noHead.1 empty), empty]
    rfl
  · obtain ⟨h, head, last⟩ := Option.map_eq_some_iff.1 (latest used free)
    rw [Cache.nextHead_val_of_some head]
    omega

theorem Cache.Sound.add {c : Nat} {k : Cache c} (sound : k.Sound) (pal : Palette c) : (k.add pal).Sound := by
  refine ⟨by simp, fun _ free => ?_, by simp⟩
  rw [k.add_count] at free ⊢
  rw [k.add_head, Option.map_some, sound.nextHead_of_lt (by omega)]
  congr 1
  omega

/-- Settles O13: the next add goes to slot COUNT_c until the ring is full. -/
theorem cacheStaysSound : Obligations.CacheStaysSound :=
  fun _ k => ⟨k.reset_sound, fun pal sound => sound.add pal⟩

/-- The cache after the adds of `pals` in one epoch (R135): add number `m` goes to slot `m mod 256`, and the last 256
adds are all there. -/
structure Cache.Holds {c : Nat} (k : Cache c) (pals : List (Palette c)) : Prop where
  count : k.count = min pals.length 256
  next : k.nextHead.val = pals.length % 256
  latest : ∀ j, j < pals.length → pals.length ≤ j + 256 → ∀ i : Fin 256, j % 256 = i.val →
    pals[j]? = some k.slots[i.val]

theorem Cache.reset_holds {c : Nat} (k : Cache c) : k.reset.Holds [] :=
  ⟨rfl, by rw [Cache.nextHead_of_none _ k.reset_head]; rfl, nofun⟩

theorem Cache.nextHead_add {c : Nat} (k : Cache c) (pal : Palette c) :
    (k.add pal).nextHead.val = (k.nextHead.val + 1) % 256 :=
  Cache.nextHead_val_of_some (k.add_head pal)

theorem Cache.Holds.add {c : Nat} {k : Cache c} {pals : List (Palette c)} (holds : k.Holds pals) (pal : Palette c) :
    (k.add pal).Holds (pals ++ [pal]) := by
  obtain ⟨count, next, latest⟩ := holds
  refine ⟨?count, ?next, fun j before recent i slot => ?latest⟩
  case count =>
    rw [k.add_count, count, List.length_append, List.length_singleton]
    omega
  case next =>
    rw [k.nextHead_add, next, List.length_append, List.length_singleton]
    omega
  case latest =>
    rw [List.length_append, List.length_singleton] at before recent
    by_cases last : j = pals.length
    · have here : i = k.nextHead := Fin.ext (by omega)
      rw [last, List.getElem?_concat_length, here, k.add_slots_nextHead]
    · have other : i ≠ k.nextHead := fun same => by
        rw [same] at slot
        omega
      rw [List.getElem?_append_left (by omega), latest j (by omega) (by omega) i slot, k.add_slots_of_ne pal other]

theorem Cache.holds_foldl_add {c : Nat} (k : Cache c) (pals : List (Palette c)) :
    (pals.foldl Cache.add k.reset).Holds pals := by
  induction pals using List.reverseRecOn with
  | nil => exact k.reset_holds
  | append_singleton pals pal ih =>
    rw [List.foldl_append]
    exact ih.add pal

/-- After an add, HEAD_c is the slot before the one the next add goes to. -/
theorem Cache.head_of_foldl_add {c : Nat} (k : Cache c) {pals : List (Palette c)} (nonempty : pals ≠ []) :
    (pals.foldl Cache.add k.reset).head.map Fin.val = some ((pals.length - 1) % 256) := by
  obtain ⟨before, pal, rfl⟩ := (List.eq_nil_or_concat' pals).resolve_left nonempty
  rw [List.foldl_append, List.foldl_cons, List.foldl_nil, Cache.add_head, Option.map_some,
    (k.holds_foldl_add before).next, List.length_append, List.length_singleton, Nat.add_sub_cancel]

/-- The latest of `m` adds whose number is `i` mod 256. -/
theorem exists_latest {m i : Nat} (hi : i < 256) (hm : i < m) :
    ∃ j < m, j % 256 = i ∧ m ≤ j + 256 ∧ ∀ j' < m, j' % 256 = i → j' ≤ j :=
  ⟨m - 1 - (m - 1 - i) % 256, by omega, by omega, by omega, by omega⟩

/-- Settles O12: by induction over the adds, the last 256 of them are in their slots. -/
theorem slotsHoldTheLatestAdds : Obligations.SlotsHoldTheLatestAdds := by
  intro c k pals
  obtain ⟨count, next, latest⟩ := k.holds_foldl_add pals
  refine ⟨count, k.head_of_foldl_add, fun i valid => ?valid, fun nonempty => ?oldest⟩
  case valid =>
    obtain ⟨j, before, slot, recent, last⟩ := exists_latest i.isLt (show i.val < pals.length by omega)
    exact ⟨j, before, slot, last, latest j before recent i slot⟩
  case oldest =>
    have pos := List.length_pos_iff.2 nonempty
    exact ⟨⟨(pals.length - 256) % 256, Nat.mod_lt _ (by decide)⟩, rfl,
      latest _ (by omega) (by omega) _ rfl⟩

end Sys2Proof.Machine
end

section
/-! PROOFS. The points that the curve visits (spec/40_curve_builder.md R105), and the order in which it meets the cells of
the grid (R104, R110): the table entry of a cell is the number of cells met before it. -/

namespace Sys2Proof.Machine

/-- Settles O16: the curve's points are a rearrangement of the square's, so they lie in it and none comes twice. -/
theorem hilbertIndexIsABijection : Obligations.HilbertIndexIsABijection := by
  intro k
  have points := hilbertXY_points_perm k
  have once : ((List.range (2 ^ k * 2 ^ k)).map (hilbertXY (2 ^ k))).Nodup :=
    points.nodup_iff.2 (List.nodup_range.product List.nodup_range)
  refine ⟨fun t ht => ?inSquare, fun t u ht hu same => ?once, fun x y hx hy => hilbertXY_surj hx hy⟩
  case inSquare =>
    have met : hilbertXY (2 ^ k) t ∈ List.range (2 ^ k) ×ˢ List.range (2 ^ k) :=
      points.subset (List.mem_map_of_mem (List.mem_range.2 ht))
    obtain ⟨hx, hy⟩ := List.pair_mem_product.1 met
    exact ⟨List.mem_range.1 hx, List.mem_range.1 hy⟩
  case once => exact List.inj_on_of_nodup_map once (List.mem_range.2 ht) (List.mem_range.2 hu) same

theorem Geometry.cellsMet_append (g : Geometry) (ts us : List Nat) :
    g.cellsMet (ts ++ us) = g.cellsMet ts ++ g.cellsMet us := by
  simp [Geometry.cellsMet]

theorem range_eq_append_cons {t n : Nat} (h : t < n) :
    ∃ us, List.range n = List.range t ++ t :: us := by
  obtain ⟨m, rfl⟩ := Nat.exists_eq_add_of_lt h
  refine ⟨(List.range m).map (t + 1 + ·), ?_⟩
  rw [Nat.add_right_comm, List.range_add, List.range_succ, List.append_assoc, List.singleton_append]

/-- The cell of Hilbert index `t` is met after the cells of the smaller indices. -/
theorem Geometry.cellsMet_range_getElem? {g : Geometry} {t n : Nat} (h : t < n)
    (inside : g.inside (hilbertXY g.n t) = true) :
    (g.cellsMet (List.range n))[(g.cellsMet (List.range t)).length]? = some (g.rasterOf (hilbertXY g.n t)) := by
  obtain ⟨us, split⟩ := range_eq_append_cons h
  rw [split, g.cellsMet_append, g.cellsMet_cons_of_inside inside, List.getElem?_append_right le_rfl, Nat.sub_self,
    List.getElem?_cons_zero]

theorem Geometry.cellsMet_range_length_lt {g : Geometry} {t u : Nat} (h : t < u)
    (inside : g.inside (hilbertXY g.n t) = true) :
    (g.cellsMet (List.range t)).length < (g.cellsMet (List.range u)).length :=
  (List.getElem?_eq_some_iff.1 (g.cellsMet_range_getElem? h inside)).1

/-- The entry of a cell is the number of cells that the curve meets before it (R104). -/
theorem buildLut_getElem?_rasterOf (w h : Nat) {t : Nat}
    (ht : t < (geometryOf w h).n * (geometryOf w h).n)
    (inside : (geometryOf w h).inside (hilbertXY (geometryOf w h).n t) = true) :
    (buildLut (geometryOf w h))[(geometryOf w h).rasterOf (hilbertXY (geometryOf w h).n t)]? =
      some ((geometryOf w h).cellsMet (List.range t)).length := by
  have order := geometryOf_cellsMet_perm_range w h
  have inTable : ∀ r ∈ (geometryOf w h).cellsMet (List.range ((geometryOf w h).n * (geometryOf w h).n)),
      r < (List.replicate (geometryOf w h).nb 0).length := fun r hr => by
    rw [List.length_replicate]
    exact List.mem_range.1 (order.subset hr)
  rw [buildLut_geometryOf, numberFrom_getElem? (order.nodup_iff.2 List.nodup_range) inTable 0
    (Geometry.cellsMet_range_getElem? ht inside), Nat.zero_add]

/-- Settles O18: the later cell has at least one more cell before it. -/
theorem curveTableFollowsTheCurve : Obligations.CurveTableFollowsTheCurve := by
  intro w h t u _ _ g before inCurve first second
  exact ⟨_, _, buildLut_getElem?_rasterOf w h (before.trans inCurve) first, buildLut_getElem?_rasterOf w h inCurve second,
    Geometry.cellsMet_range_length_lt before first⟩

/-- Settles O19: the model run on the sixteen sizes. -/
theorem curveTableWorkedExample : Obligations.CurveTableWorkedExample := by
  unfold Obligations.CurveTableWorkedExample
  decide +kernel

end Sys2Proof.Machine
end

section
/-! PROOFS. The invariant of the core (spec/10_state.md R20 to R31, spec/43_block_commands.md R142). Each operation that a step
can end in keeps it; `step_turn` and the list of the requests say that there are no others. -/

namespace Sys2Proof.Machine

/-! ### STATUS -/

theorem Cause.status_zero_sound (c : Cause) : (c.status 0 0).Sound :=
  ⟨rfl, .inr (.inr (.inr ⟨rfl, rfl⟩))⟩

theorem Cause.status_sound_of_ofStream {c : Cause} (ofStream : c.ofStream = true) (posRead posBlock : Nat) :
    (c.status posRead posBlock).Sound := by
  refine ⟨rfl, ?_⟩
  cases c with
  | truncExt | truncSelector | truncPalette | truncColor | truncBlockdata => exact .inr (.inl rfl)
  | repeatAtZero | cacheIndex | blockOverrun => exact .inr (.inr (.inl rfl))
  | noError | geomNonpositive | geomTooLarge | notConfigured | inputTooLarge => cases ofStream

theorem Cause.noError_status_sound (posRead posBlock : Nat) : (Cause.noError.status posRead posBlock).Sound :=
  ⟨rfl, .inl rfl⟩

/-! ### A configured state -/

section
variable {s : State}

theorem State.cache2After_sound (conf : s.Configured) (i : Instr) : (s.cache2After i).Sound := by
  cases i
  case pal2 lf pal data => exact conf.cache2Sound.add pal
  all_goals exact conf.cache2Sound

theorem State.cache4After_sound (conf : s.Configured) (i : Instr) : (s.cache4After i).Sound := by
  cases i
  case pal4 lf pal data => exact conf.cache4Sound.add pal
  all_goals exact conf.cache4Sound

theorem State.cache8After_sound (conf : s.Configured) (i : Instr) : (s.cache8After i).Sound := by
  cases i
  case pal8 lf pal data => exact conf.cache8Sound.add pal
  all_goals exact conf.cache8Sound

theorem State.committed_tags_length (s : State) (i : Instr) : (s.committed i).tags.length = s.tags.length := by
  simp only [State.committed, State.commit_tags]
  split
  · rw [writeTags_length, State.added_tags]
  · rfl

theorem State.Configured.committed {i : Instr} (conf : s.Configured) (passes : s.firstFailure i = none) :
    (s.committed i).Configured :=
  { conf with
    bsSize := (writeBlocks_length _ _ _).trans conf.bsSize
    tagsLength := (s.committed_tags_length i).trans conf.tagsLength
    cache2Sound := State.cache2After_sound conf i
    cache4Sound := State.cache4After_sound conf i
    cache8Sound := State.cache8After_sound conf i
    blockInside := (State.inside_of_firstFailure_eq_none passes).1 }

theorem State.Configured.raiseError (conf : s.Configured) (c : Cause) : (s.raiseError c).Configured :=
  { conf with statusInside := conf.blockInside }

theorem State.Configured.finishFrame (conf : s.Configured) (f : Frame) : (s.finishFrame f).Configured :=
  { conf with statusInside := conf.blockInside }

theorem State.Configured.beginFrame (conf : s.Configured) (input : List Byte) (debug : Bool) :
    (s.beginFrame input debug).Configured :=
  { conf with
    cache2Sound := s.cache2.reset_sound
    cache4Sound := s.cache4.reset_sound
    cache8Sound := s.cache8.reset_sound
    blockInside := Nat.zero_le _ }

theorem State.Configured.refuse (conf : s.Configured) (c : Cause) : (s.refuse c).Configured :=
  { conf with statusInside := Nat.zero_le _ }

/-- A CONSTRUCT within the bounds makes a configured state (R191). -/
theorem State.configure_configured {w h : Nat} (hw : 0 < w) (hh : 0 < h) (widthIn : withinBound w s.params.maxWidth)
    (heightIn : withinBound h s.params.maxHeight) : (s.configure w h).Configured := by
  obtain ⟨store, -, tags⟩ := (Memory.wf_iff _).1 (configure_memory_wf s w h) rfl
  exact
    { geoDerived := ⟨hw, hh, rfl⟩
      widthBound := widthIn
      heightBound := heightIn
      lutBuilt := rfl
      bsSize := store
      tagsLength := tags
      cache2Sound := Cache.reset_sound _
      cache4Sound := Cache.reset_sound _
      cache8Sound := Cache.reset_sound _
      blockInside := Nat.zero_le _
      statusInside := Nat.zero_le _ }

/-! ### One turn of the pass -/

/-- Between two requests only the configuration and STATUS have anything to keep. -/
theorem State.Inv.of_between (between : s.frame = none) (configured : s.cfg = .ready → s.Configured)
    (status : s.status.Sound) : s.Inv where
  frameReady := fun busy => absurd between busy
  configured := configured
  readInside := fun f frame => by rw [between] at frame; cases frame
  inputBound := fun f frame => by rw [between] at frame; cases frame
  statusSound := status

theorem State.Inv.of_unconfigured (between : s.frame = none) (unconfigured : s.cfg = .unconfigured)
    (status : s.status.Sound) : s.Inv :=
  .of_between between (fun ready => by rw [unconfigured] at ready; cases ready) status

theorem State.Inv.turn {f : Frame} {t : State} (inv : s.Inv) (frame : s.frame = some f) (turn : Turn s f t) : t.Inv := by
  have ready : s.cfg = .ready := inv.frameReady (by rw [frame]; exact Option.some_ne_none f)
  have conf := inv.configured ready
  cases turn with
  | command i rest wf split passes =>
    have same (g : Frame) (h : (s.committed i).frame = some g) : g = f := Option.some.inj (h.symm.trans frame)
    exact
      { frameReady := fun _ => ready
        configured := fun _ => conf.committed passes
        readInside := fun g h => same g h ▸ readPos_add_commandLen_le wf split
        inputBound := inv.inputBound
        statusSound := inv.statusSound }
  | error c ofStream =>
    exact .of_between rfl (fun _ => conf.raiseError c) (Cause.status_sound_of_ofStream ofStream _ _)
  | finish => exact .of_between rfl (fun _ => conf.finishFrame f) (Cause.noError_status_sound _ _)

/-! ### One request -/

variable {w h : Int} {input : List Byte} {debug : Bool}

theorem State.Inv.construct (between : s.frame = none) : (s.construct w h).Inv := by
  by_cases bad : w ≤ 0 ∨ h ≤ 0
  · rw [State.construct_of_nonpositive bad]
    exact .of_unconfigured between rfl (Cause.status_zero_sound _)
  · obtain ⟨hw, hh⟩ := not_or.1 bad
    rw [not_le] at hw hh
    by_cases large : exceeds w s.params.maxWidth = true ∨ exceeds h s.params.maxHeight = true
    · rw [State.construct_of_tooLarge hw hh large]
      exact .of_unconfigured between rfl (Cause.status_zero_sound _)
    · obtain ⟨widthIn, heightIn⟩ := not_or.1 large
      rw [Bool.not_eq_true] at widthIn heightIn
      rw [State.construct_of_within hw hh widthIn heightIn]
      refine .of_between between (fun _ => State.configure_configured (by omega) (by omega) ?_ ?_)
        (Cause.status_zero_sound .noError)
      · rwa [withinBound, Int.toNat_of_nonneg hw.le]
      · rwa [withinBound, Int.toNat_of_nonneg hh.le]

theorem State.Inv.admitFrame (inv : s.Inv) (between : s.frame = none) : (s.admitFrame input debug).Inv := by
  cases configuration : s.cfg with
  | unconfigured =>
    rw [State.admitFrame_of_unconfigured configuration]
    exact .of_unconfigured between configuration (Cause.status_zero_sound _)
  | ready =>
    have conf := inv.configured configuration
    cases within : exceeds input.length s.params.maxInputBytes with
    | true =>
      rw [State.admitFrame_of_tooLong configuration within]
      exact .of_between between (fun _ => conf.refuse _) (Cause.status_zero_sound _)
    | false =>
      rw [State.admitFrame_of_admitted configuration within]
      have same (g : Frame) (h : (s.beginFrame input debug).frame = some g) : g = { input := input, debug := debug } :=
        (Option.some.inj h).symm
      exact
        { frameReady := fun _ => configuration
          configured := fun _ => conf.beginFrame input debug
          readInside := fun _ _ => Nat.zero_le _
          inputBound := fun g h => same g h ▸ within
          statusSound := inv.statusSound }

theorem State.Inv.destroy (between : s.frame = none) : s.destroy.Inv := by
  cases configuration : s.cfg with
  | ready =>
    rw [State.destroy_of_ready configuration]
    exact .of_unconfigured between rfl (Cause.status_zero_sound .noError)
  | unconfigured =>
    rw [State.destroy_of_unconfigured configuration]
    exact .of_unconfigured between configuration (Cause.status_zero_sound .noError)

/-- The host's side of the interface has no part in the invariant. -/
theorem State.Inv.host (inv : s.Inv) (requests : List Request) (answer : Option StatusReport) :
    ({ s with requests := requests, answer := answer } : State).Inv :=
  { inv with configured := fun ready => { inv.configured ready with } }

theorem State.Inv.serve (inv : s.Inv) (between : s.frame = none) (r : Request) : (s.serve r).Inv := by
  cases r with
  | reset => exact .of_unconfigured between rfl (Cause.status_zero_sound .noError)
  | construct w h => exact .construct between
  | decodeFrame input debug => exact inv.admitFrame between
  | destroy => exact .destroy between
  | readStatus => exact inv.host _ _

end

/-! ### The statements -/

/-- Settles O58: while a frame is decoded a step is one turn of the pass, and else it serves a request or waits. -/
theorem invariantKeptByEveryStep : Obligations.InvariantKeptByEveryStep := by
  intro s t inv answer
  cases frame : s.frame with
  | some f =>
    obtain ⟨u, stepped, turn⟩ := step_turn frame
    rw [stepped, Host.Outcome.next.injEq] at answer
    exact answer ▸ inv.turn frame turn
  | none =>
    cases requests : s.requests with
    | nil =>
      rw [idleCoreWaits s frame requests, Host.Outcome.next.injEq] at answer
      exact answer ▸ inv
    | cons r rest =>
      rw [step_request frame requests, Host.Outcome.next.injEq] at answer
      exact answer ▸ (inv.host rest s.answer).serve frame r

/-- Settles O59: the core is UNCONFIGURED after reset. -/
theorem resetHasTheInvariant : Obligations.ResetHasTheInvariant :=
  .of_unconfigured rfl rfl (Cause.status_zero_sound .noError)

end Sys2Proof.Machine
end

section
/-! PROOFS. The debug channel (spec/43_block_commands.md R144, spec/44_frame_assembler.md R182). What every operation leaves
outside the channel is a function of what was there outside the channel before: `congrArg` with that function carries the
equality of two erased states over the operation. -/

namespace Sys2Proof.Machine

section
variable {s u : State}

/-! ### The decode pass -/

theorem firstFailure_of_eraseDebug (same : s.eraseDebug = u.eraseDebug) (i : Instr) :
    s.firstFailure i = u.firstFailure i :=
  (congrArg (fun e : State => e.firstFailure i) same :)

theorem raiseError_of_eraseDebug (same : s.eraseDebug = u.eraseDebug) (c : Cause) :
    (s.raiseError c).eraseDebug = (u.raiseError c).eraseDebug :=
  congrArg (fun e : State => { e with
    frame := none
    status := c.status e.readPos e.blockPos
    out := e.freeRaster e.draws
    draws := e.draws + 2 }) same

theorem committed_of_eraseDebug (same : s.eraseDebug = u.eraseDebug) (i : Instr) :
    (s.committed i).eraseDebug = (u.committed i).eraseDebug :=
  congrArg (fun e : State => { e with
    bs := writeBlocks e.bs e.blockPos (e.writes i)
    cache2 := e.cache2After i
    cache4 := e.cache4After i
    cache8 := e.cache8After i
    readPos := e.readPos + commandLen i.tag i.count
    blockPos := e.blockPos + i.count }) same

/-- OUT does not show whether the debug raster was asked for (R182). -/
theorem finishFrame_of_eraseDebug {f g : Frame} (same : s.eraseDebug = u.eraseDebug) (input : f.input = g.input) :
    (s.finishFrame f).eraseDebug = (u.finishFrame g).eraseDebug := by
  have ended : (s.finishFrame f).eraseDebug = (u.finishFrame f).eraseDebug := congrArg (fun e : State => { e with
    frame := none
    out := e.raster e.pixel
    status := Cause.noError.status f.input.length e.blockPos }) same
  exact ended.trans (by rw [State.finishFrame, State.finishFrame, input]; rfl)

/-- Both answers are next states, and they are the same outside the debug channel. -/
def SameButDebug (a b : Result) : Prop := ∃ t v, a = .next t ∧ b = .next v ∧ t.eraseDebug = v.eraseDebug

theorem SameButDebug.next (same : s.eraseDebug = u.eraseDebug) : SameButDebug (.next s) (.next u) :=
  ⟨s, u, rfl, rfl, same⟩

theorem exec_sameButDebug (same : s.eraseDebug = u.eraseDebug) (i : Instr) : SameButDebug (exec i s) (exec i u) := by
  rw [exec_eq, exec_eq, firstFailure_of_eraseDebug same]
  cases u.firstFailure i with
  | none => exact .next (committed_of_eraseDebug same i)
  | some c => exact .next (raiseError_of_eraseDebug same c)

theorem runDecoded_sameButDebug {f g : Frame} (same : s.eraseDebug = u.eraseDebug) (input : f.input = g.input)
    (d : Decoded) : SameButDebug (s.runDecoded f d) (u.runDecoded g d) := by
  cases d with
  | ok r => exact exec_sameButDebug same r.1
  | error e =>
    cases e with
    | noHeader => exact .next (finishFrame_of_eraseDebug same input)
    | noExt | noColour | noPalette | noSelector => exact .next (raiseError_of_eraseDebug same _)
    | noBlockData i => exact exec_sameButDebug same i

theorem decodeTurn_sameButDebug {f g : Frame} (same : s.eraseDebug = u.eraseDebug) (input : f.input = g.input) :
    SameButDebug (s.decodeTurn f) (u.decodeTurn g) := by
  have readPos : s.readPos = u.readPos := (congrArg State.readPos same :)
  have unread : s.unread f = u.unread g := by rw [State.unread, State.unread, readPos, input]
  rw [State.decodeTurn, State.decodeTurn, State.runCommand, State.runCommand, unread, readPos, input]
  split
  · exact runDecoded_sameButDebug same input _
  · exact .next (finishFrame_of_eraseDebug same input)

/-! ### The requests -/

/-- The debug flag of a request reaches nothing but the flag of the frame it begins. -/
theorem serve_eraseDebug_request (s : State) (r : Request) :
    (s.serve r).eraseDebug = (s.serve r.eraseDebug).eraseDebug := by
  cases r with
  | decodeFrame input debug =>
    simp only [Request.eraseDebug, State.serve_decodeFrame, State.admitFrame]
    split
    · rfl
    · split <;> rfl
  | reset | construct | destroy | readStatus => rfl

theorem failConstruct_of_eraseDebug (same : s.eraseDebug = u.eraseDebug) (c : Cause) :
    (s.failConstruct c).eraseDebug = (u.failConstruct c).eraseDebug :=
  congrArg (fun e : State => { e.failConstruct c with tags := [] }) same

theorem configure_of_eraseDebug (same : s.eraseDebug = u.eraseDebug) (w h : Nat) :
    (s.configure w h).eraseDebug = (u.configure w h).eraseDebug :=
  congrArg (fun e : State => { e.configure w h with tags := [] }) same

theorem construct_of_eraseDebug (same : s.eraseDebug = u.eraseDebug) (w h : Int) :
    (s.construct w h).eraseDebug = (u.construct w h).eraseDebug := by
  have maxWidth : s.params.maxWidth = u.params.maxWidth := (congrArg (fun e : State => e.params.maxWidth) same :)
  have maxHeight : s.params.maxHeight = u.params.maxHeight := (congrArg (fun e : State => e.params.maxHeight) same :)
  rw [State.construct, State.construct, maxWidth, maxHeight]
  split
  · exact failConstruct_of_eraseDebug same _
  · split
    · exact failConstruct_of_eraseDebug same _
    · exact configure_of_eraseDebug same _ _

theorem refuse_of_eraseDebug (same : s.eraseDebug = u.eraseDebug) (c : Cause) :
    (s.refuse c).eraseDebug = (u.refuse c).eraseDebug :=
  congrArg (fun e : State => e.refuse c) same

theorem beginFrame_of_eraseDebug (same : s.eraseDebug = u.eraseDebug) (input : List Byte) (debug : Bool) :
    (s.beginFrame input debug).eraseDebug = (u.beginFrame input debug).eraseDebug :=
  congrArg (fun e : State => e.beginFrame input false) same

theorem admitFrame_of_eraseDebug (same : s.eraseDebug = u.eraseDebug) (input : List Byte) (debug : Bool) :
    (s.admitFrame input debug).eraseDebug = (u.admitFrame input debug).eraseDebug := by
  have cfg : s.cfg = u.cfg := (congrArg State.cfg same :)
  have bound : s.params.maxInputBytes = u.params.maxInputBytes :=
    (congrArg (fun e : State => e.params.maxInputBytes) same :)
  rw [State.admitFrame, State.admitFrame, cfg, bound]
  split
  · exact refuse_of_eraseDebug same _
  · split
    · exact refuse_of_eraseDebug same _
    · exact beginFrame_of_eraseDebug same _ _

theorem destroy_of_eraseDebug (same : s.eraseDebug = u.eraseDebug) : s.destroy.eraseDebug = u.destroy.eraseDebug := by
  have cfg : s.cfg = u.cfg := (congrArg State.cfg same :)
  cases configuration : u.cfg with
  | ready =>
    rw [State.destroy_of_ready configuration, State.destroy_of_ready (cfg.trans configuration)]
    exact congrArg (fun e : State => { e.forget with tags := [], cfg := .unconfigured, status := .zero }) same
  | unconfigured =>
    rw [State.destroy_of_unconfigured configuration, State.destroy_of_unconfigured (cfg.trans configuration)]
    exact congrArg (fun e : State => { e with status := .zero }) same

theorem serve_of_eraseDebug (same : s.eraseDebug = u.eraseDebug) (r : Request) :
    (s.serve r).eraseDebug = (u.serve r).eraseDebug := by
  cases r with
  | reset => exact congrArg (fun e : State => { e.hardwareReset with tags := [] }) same
  | construct w h => exact construct_of_eraseDebug same w h
  | decodeFrame input debug => exact admitFrame_of_eraseDebug same input debug
  | destroy => exact destroy_of_eraseDebug same
  | readStatus => exact congrArg (fun e : State => e.readStatus) same

theorem idle_of_eraseDebug (same : s.eraseDebug = u.eraseDebug) : s.idle.eraseDebug = u.idle.eraseDebug := by
  have requests : s.requests.map Request.eraseDebug = u.requests.map Request.eraseDebug :=
    congrArg State.requests same
  cases hs : s.requests with
  | nil =>
    rw [hs, List.map_nil, eq_comm, List.map_eq_nil_iff] at requests
    rw [State.idle, State.idle, hs, requests]
    exact same
  | cons r rest =>
    rw [hs, List.map_cons, eq_comm, List.map_eq_cons_iff] at requests
    obtain ⟨r', rest', hu, request, later⟩ := requests
    rw [State.idle_of_request hs, State.idle_of_request hu]
    have taken : ({ s with requests := rest } : State).eraseDebug = ({ u with requests := rest' } : State).eraseDebug :=
      (congrArg (fun e : State => { e with requests := rest.map Request.eraseDebug }) same).trans (by rw [← later]; rfl)
    calc (({ s with requests := rest } : State).serve r).eraseDebug
      _ = (({ u with requests := rest' } : State).serve r).eraseDebug := serve_of_eraseDebug taken r
      _ = (({ u with requests := rest' } : State).serve r.eraseDebug).eraseDebug := serve_eraseDebug_request _ r
      _ = (({ u with requests := rest' } : State).serve r'.eraseDebug).eraseDebug := by rw [request]
      _ = (({ u with requests := rest' } : State).serve r').eraseDebug := (serve_eraseDebug_request _ r').symm

end

/-- Settles O60: the two states are both between requests, or decode frames of the same input. -/
theorem debugChannelNeverAltersOutput : Obligations.DebugChannelNeverAltersOutput := by
  intro s u same
  have frames : s.frame.map (fun f => { f with debug := false }) = u.frame.map fun f => { f with debug := false } :=
    congrArg State.frame same
  change SameButDebug (step s) (step u)
  cases hs : s.frame with
  | none =>
    rw [hs, Option.map_none, eq_comm, Option.map_eq_none_iff] at frames
    rw [step_idle hs, step_idle frames]
    exact .next (idle_of_eraseDebug same)
  | some f =>
    rw [hs, Option.map_some, eq_comm, Option.map_eq_some_iff] at frames
    obtain ⟨g, hu, shown⟩ := frames
    have input : f.input = g.input := (congrArg Frame.input shown).symm
    rw [step, step, hs, hu]
    exact decodeTurn_sameButDebug same input

end Sys2Proof.Machine
end
